-- ==== Sys2Proof/Word.lean ====
section
/-! DEFINITION. Word types of FSX: a bus byte, a 16-bit host word, and the four bytes of a preamble or of the
sliding window (00_scope.md R6, R11; 10_state.md R38). -/
namespace Sys2Proof

/-- A bus byte (10_state.md R31). -/
abbrev Byte := BitVec 8

/-- A host register, command word or checksum (10_state.md R47; 41_frame_validator.md R170). -/
abbrev Half := BitVec 16

/-- Four bytes in stream order, `b0` the oldest: PREAMBLE[0..3] (00_scope.md R6) and WIN[0..3] (10_state.md R38). -/
structure Quad where
  b0 : Byte
  b1 : Byte
  b2 : Byte
  b3 : Byte
  deriving DecidableEq, Repr, Inhabited

namespace Quad

/-- The four bytes in stream order. -/
def toList (q : Quad) : List Byte := [q.b0, q.b1, q.b2, q.b3]

end Quad

end Sys2Proof
end

