-- ==== Sys2Proof/Config.lean ====
section
/-! DEFINITION. What is fixed for an instance of FSX (00_scope.md R6, R7), the inputs of one clock cycle
(10_state.md R30, R31, R32), and the free value that stands for inputs nobody has listed (00_scope.md R14). -/
namespace Sys2Proof

/-- The constants the source fixes (00_scope.md R6). -/
abbrev Config.preLen : Nat := 4
abbrev Config.hdrLen : Nat := 4
abbrev Config.ckLen : Nat := 2
abbrev Config.ckMod : Nat := 65536
abbrev Config.statusMinLen : Nat := 8
abbrev Config.maxAttempts : Nat := 5
abbrev Config.timeoutS : Nat := 5
abbrev Config.setPayloadLen : Nat := 2
abbrev Config.nFeatures : Nat := 9

/-- The OPEN configuration parameters (00_scope.md R7, and PREAMBLE of R6). They are no state of FSX; an instance
carries them unchanged (10_state.md R33). `Params.wf` (Machine/Frames.lean) is R8. -/
structure Params where
  /-- PREAMBLE[0..3]; the source calls its value illustrative (92_eei_decisions.md D4). -/
  preamble : Quad
  addrMain : Byte
  addrRemote : Byte
  addrPump : Byte
  /-- ADDR_BCAST: read by no rule (92_eei_decisions.md D10). -/
  addrBcast : Byte
  cmdSet : Byte
  cmdTelem : Byte
  /-- TELEM_FRAME_LEN, in total frame bytes (R9). -/
  telemFrameLen : Nat
  offPwatt : Nat
  offPrpm : Nat
  offEq1 : Nat
  offEq2 : Nat
  offHour : Nat
  offMin : Nat
  offWtemp : Nat
  offAtemp : Nat
  /-- FEATURE_ID[0..8]: the on-wire byte of each feature index. -/
  featureId : Vector Byte 9
  /-- F_CLK_HZ. -/
  fClkHz : Nat
  deriving DecidableEq, Repr

/-- TCFG, the test configuration (92_eei_decisions.md D35). DESIGN CHOICE (log 1, unsafe): the configuration of
`State.reset`. Statements quantify over every configuration. -/
def Config.tcfg : Params where
  preamble := ⟨0xFF, 0x00, 0xFF, 0xA5⟩
  addrMain := 0x10
  addrRemote := 0x20
  addrPump := 0x60
  addrBcast := 0x0F
  cmdSet := 0x86
  cmdTelem := 0x07
  telemFrameLen := 25
  offPwatt := 3
  offPrpm := 5
  offEq1 := 2
  offEq2 := 3
  offHour := 0
  offMin := 1
  offWtemp := 14
  offAtemp := 18
  featureId := #v[1, 2, 3, 4, 5, 6, 7, 8, 9]
  fClkHz := 40

/-- The input ports sampled in one clock cycle (10_state.md R30, R31, R32). -/
structure CycleIn where
  rst : Bool
  rxValid : Bool
  rxData : Byte
  chanFail : Bool
  txReady : Bool
  hWe : Bool
  hAddr : BitVec 5
  hWdata : Half
  deriving DecidableEq, Repr, Inhabited

/-- The inputs that a cycle has where a stimulus script names none (30_encoding.md R118): nothing arrives, nothing is
written, and `tx_ready` is 1. `rx_data` and `h_wdata` are then ignored (10_state.md R31, R32). DESIGN CHOICE (log 18):
R118 lists no default for `h_addr`, whose register `h_rdata` shows in every cycle (44_host_interface.md R270); it is 0x00
here, the address of CTRL. -/
def CycleIn.quiet : CycleIn where
  rst := false
  rxValid := false
  rxData := 0
  chanFail := false
  txReady := true
  hWe := false
  hAddr := 0
  hWdata := 0

/-- The inputs of cycle `n` of a run for which the tape lists none: a FREE VALUE (log 2, safe). The spec leaves every
input to the environment (00_scope.md R14; 45_cycle_step.md R308), so nothing can be proved of it. -/
opaque Config.freeInput : Nat → CycleIn

end Sys2Proof
end

