-- ==== Sys2Proof/Syntax.lean ====
section
/-! DEFINITION. The operations of FSX: one constructor of `Instr` per row of spec/opcode_table.json, with the operands
the row's fields give it. -/
namespace Sys2Proof

/-- The nine features in the order of their indices (00_scope.md R12). -/
inductive Feature where
  | spa | cleaner | airBlower | spaLight | poolLight | pool | waterFeature | spillway | aux
  deriving DecidableEq, Repr

namespace Feature

/-- The feature index (00_scope.md R12). -/
def index : Feature → BitVec 4
  | .spa => 0
  | .cleaner => 1
  | .airBlower => 2
  | .spaLight => 3
  | .poolLight => 4
  | .pool => 5
  | .waterFeature => 6
  | .spillway => 7
  | .aux => 8

end Feature

/-- A bus frame without its preamble (30_encoding.md R100): header, payload and checksum trailer. -/
structure Frame where
  dst : Byte
  src : Byte
  cmd : Byte
  len : Byte
  payload : List Byte
  ckh : Byte
  ckl : Byte
  deriving DecidableEq, Repr

/-- The operations, one per row of the opcode table. -/
inductive Instr where
  /-- NOP (30_encoding.md R113). -/
  | nop
  /-- SETF: desired state, feature index (30_encoding.md R114). -/
  | setf (st : Bool) (feat : BitVec 4)
  /-- CLR: CLR_CNT, CLR_ERR, CLR_DONE (30_encoding.md R115). -/
  | clr (cnt err done : Bool)
  /-- ILLEGAL.NOP: OP 0 with bits 11:0 not zero (30_encoding.md R116(b)). -/
  | illegalNop (rsv : BitVec 12)
  /-- ILLEGAL.SETF: bits 11:5 not zero, or FEAT 9..15 (30_encoding.md R116(c)). -/
  | illegalSetf (rsv : BitVec 7) (st : Bool) (feat : BitVec 4)
  /-- ILLEGAL.CLR: bits 11:3 not zero (30_encoding.md R116(d)); `low` is bits 2:0. -/
  | illegalClr (rsv : BitVec 9) (low : BitVec 3)
  /-- ILLEGAL.OP3 (30_encoding.md R116(a)). -/
  | illegalOp3 (rest : BitVec 12)
  /-- ILLEGAL.OP4_7: OP 4..7, the low two bits of OP above bits 11:0 (30_encoding.md R116(a)). -/
  | illegalOp4to7 (rest : BitVec 14)
  /-- ILLEGAL.OP8_F: OP 8..15 (30_encoding.md R116(a)). -/
  | illegalOp8toF (rest : BitVec 15)
  /-- REG_READ (44_host_interface.md R271). -/
  | regRead (addr : BitVec 5)
  /-- REG_WRITE.CTRL (44_host_interface.md R272). -/
  | regWriteCtrl (v : Half)
  /-- REG_WRITE.CMD (44_host_interface.md R273). -/
  | regWriteCmd (w : Half)
  /-- REG_WRITE.OTHER (44_host_interface.md R274). -/
  | regWriteOther (addr : BitVec 5) (v : Half)
  /-- RX.FAIL (40_frame_reader.md R141). -/
  | rxFail
  /-- RX.DEAD (40_frame_reader.md R141). -/
  | rxDead
  /-- RX.OFF (40_frame_reader.md R142). -/
  | rxOff
  /-- RX.NONE (40_frame_reader.md R143). -/
  | rxNone
  /-- RX.HUNT (40_frame_reader.md R144). -/
  | rxHunt (b : Byte)
  /-- RX.HDR (40_frame_reader.md R145). -/
  | rxHdr (b : Byte)
  /-- RX.PAY (40_frame_reader.md R146). -/
  | rxPay (b : Byte)
  /-- RX.CK0 (40_frame_reader.md R147). -/
  | rxCk0 (b : Byte)
  /-- RX.CK1 (40_frame_reader.md R148). -/
  | rxCk1 (b : Byte)
  /-- FRAME.TELEM (42_status_decoder.md R191). -/
  | frameTelem (f : Frame)
  /-- FRAME.STATUS (42_status_decoder.md R192). -/
  | frameStatus (f : Frame)
  /-- FRAME.SKIP (42_status_decoder.md R193). -/
  | frameSkip (f : Frame)
  /-- FRAME.BADCK (41_frame_validator.md R174). -/
  | frameBadck (f : Frame)
  /-- CMDFRAME(f, s) (43_command_dispatcher.md R231). -/
  | cmdFrame (feat : BitVec 4) (st : Bool)
  /-- DSP.IDLE (43_command_dispatcher.md R243). -/
  | dspIdle
  /-- DSP.START: desired state, feature index (43_command_dispatcher.md R232). -/
  | dspStart (st : Bool) (feat : BitVec 4)
  /-- DSP.TX, with the cycle's `tx_ready` (43_command_dispatcher.md R233). -/
  | dspTx (ready : Bool)
  /-- DSP.TX_END (43_command_dispatcher.md R234). -/
  | dspTxEnd
  /-- DSP.WALL_TIMEOUT, from DSTATE TX (1) or WAIT (2) (43_command_dispatcher.md R241). -/
  | dspWallTimeout (dstate : BitVec 2)
  /-- DSP.SUCCESS (43_command_dispatcher.md R238). -/
  | dspSuccess
  /-- DSP.RETRY (43_command_dispatcher.md R239). -/
  | dspRetry
  /-- DSP.EXHAUST (43_command_dispatcher.md R240). -/
  | dspExhaust
  /-- DSP.WAIT (43_command_dispatcher.md R236). -/
  | dspWait
  deriving DecidableEq, Repr

end Sys2Proof
end

