-- ==== Sys2Proof/Machine/Frames.lean ====
section
/-! DEFINITION. Frames and what an instance derives from its parameters: well-formed configurations, lengths, the
timeout, the checksum, the class of a frame, and the command frame. -/
namespace Sys2Proof

namespace Params

/-- TIMEOUT_TICKS = 5 x F_CLK_HZ (00_scope.md R9). -/
def timeoutTicks (c : Params) : Nat := Config.timeoutS * c.fClkHz

/-- TLEN, the payload length of a telemetry frame (00_scope.md R8(c)). -/
def telemLen (c : Params) : Nat := c.telemFrameLen - 10

/-- A well-formed configuration (00_scope.md R8). -/
def wf (c : Params) : Bool :=
  decide (c.offEq1 ≤ 8) && decide (c.offEq2 ≤ 8) && decide (c.offHour ≤ 8) && decide (c.offMin ≤ 8) &&
  decide (c.offWtemp ≤ 254) && decide (c.offAtemp ≤ 254) &&
  decide (10 ≤ c.telemFrameLen) && decide (c.telemFrameLen ≤ 265) &&
  decide (c.offPwatt + 1 < c.telemLen) && decide (c.offPrpm + 1 < c.telemLen) &&
  decide (1 ≤ c.fClkHz)

/-- FEATURE_ID[f], where `f` names a feature (00_scope.md R7, R12). -/
def featureByte (c : Params) (f : BitVec 4) : Option Byte := c.featureId.toList[f.toNat]?

end Params

/-- FLEN(LEN), the total frame length (00_scope.md R9). -/
def flen (len : Byte) : Nat := Config.preLen + Config.hdrLen + len.toNat + Config.ckLen

/-- CKSUM(B) = (sum of the bytes) mod 65536 (41_frame_validator.md R170). -/
def cksum (bs : List Byte) : Half := BitVec.ofNat 16 (bs.map BitVec.toNat).sum

/-- A 16-bit value from its two bytes, high byte first (20_memory.md R82; 00_scope.md R11). -/
def beHalf (hi lo : Byte) : Half := hi ++ lo

/-- The high byte of a 16-bit value. -/
def hiByte (v : Half) : Byte := v.extractLsb' 8 8

/-- The low byte of a 16-bit value. -/
def loByte (v : Half) : Byte := v.extractLsb' 0 8

/-- A one-bit value as a byte: 0x01 or 0x00 (30_encoding.md R109). -/
def bitByte (b : Bool) : Byte := if b then 1 else 0

/-- The class of an accepted frame (30_encoding.md R105). -/
inductive FrameClass where
  | telem | status | skip
  deriving DecidableEq, Repr

/-- CLASSIFY from source, command and declared length (42_status_decoder.md R190). TELEM is tested first. -/
def classify (c : Params) (src cmd len : Byte) : FrameClass :=
  if src = c.addrPump ∧ cmd = c.cmdTelem ∧ flen len = c.telemFrameLen then .telem
  else if Config.statusMinLen < len.toNat then .status
  else .skip

namespace Frame

/-- The bytes the checksum covers: header and payload (30_encoding.md R102). -/
def summed (f : Frame) : List Byte := [f.dst, f.src, f.cmd, f.len] ++ f.payload

/-- The transmitted checksum {CKH, CKL} (30_encoding.md R103). -/
def ck (f : Frame) : Half := beHalf f.ckh f.ckl

/-- The frame is valid: transmitted and computed checksum agree (30_encoding.md R103). -/
def valid (f : Frame) : Bool := f.ck == cksum f.summed

/-- Exactly LEN payload bytes (30_encoding.md R100). -/
def lenOk (f : Frame) : Bool := f.payload.length == f.len.toNat

/-- The class of the frame, if it is accepted. -/
def kind (f : Frame) (c : Params) : FrameClass := classify c f.src f.cmd f.len

/-- The frame's bytes on the bus, preamble first (30_encoding.md R100). -/
def bytes (f : Frame) (c : Params) : List Byte := c.preamble.toList ++ f.summed ++ [f.ckh, f.ckl]

/-- P[i], payload byte `i`. Its callers read only indices below LEN. -/
def pay (f : Frame) (i : Nat) : Byte := f.payload.getD i 0

end Frame

/-- The frame CMDFRAME(f, s), where `f` names a feature: destination ADDR_REMOTE, source ADDR_MAIN, and the checksum
of rule R175 (30_encoding.md R109). -/
def cmdFrameOf (c : Params) (f : BitVec 4) (s : Bool) : Option Frame :=
  match c.featureByte f with
  | none => none
  | some fid =>
    let sum := cksum [c.addrRemote, c.addrMain, c.cmdSet, 0x02, fid, bitByte s]
    some { dst := c.addrRemote, src := c.addrMain, cmd := c.cmdSet, len := 0x02, payload := [fid, bitByte s],
           ckh := hiByte sum, ckl := loByte sum }

/-- CMDFRAME(f, s)[i] (43_command_dispatcher.md R231), where feature and index exist. -/
def cmdByte (c : Params) (f : BitVec 4) (s : Bool) (i : Nat) : Option Byte :=
  match cmdFrameOf c f s with
  | none => none
  | some fr => (fr.bytes c)[i]?

end Sys2Proof
end

