-- ==== Sys2Proof/WellFormed.lean ====
section
/-! DEFINITION. Which terms of `Instr` stand for an operation of the opcode table, under a configuration. -/
namespace Sys2Proof

namespace Instr

/-- The conditions of the opcode table's rows on their operands (30_encoding.md R105, R114, R116;
44_host_interface.md R274; 43_command_dispatcher.md R232, R241). -/
def wf (c : Params) : Instr → Bool
  | .nop => true
  | .setf _ feat => decide (feat.toNat < Config.nFeatures)
  | .clr _ _ _ => true
  | .illegalNop rsv => rsv != 0
  | .illegalSetf rsv _ feat => rsv != 0 || decide (Config.nFeatures ≤ feat.toNat)
  | .illegalClr rsv _ => rsv != 0
  | .illegalOp3 _ => true
  | .illegalOp4to7 _ => true
  | .illegalOp8toF _ => true
  | .regRead _ => true
  | .regWriteCtrl _ => true
  | .regWriteCmd _ => true
  | .regWriteOther addr _ => addr != 0 && addr != 1
  | .rxFail => true
  | .rxDead => true
  | .rxOff => true
  | .rxNone => true
  | .rxHunt _ => true
  | .rxHdr _ => true
  | .rxPay _ => true
  | .rxCk0 _ => true
  | .rxCk1 _ => true
  | .frameTelem f => f.lenOk && f.valid && f.kind c == .telem
  | .frameStatus f => f.lenOk && f.valid && f.kind c == .status
  | .frameSkip f => f.lenOk && f.valid && f.kind c == .skip
  | .frameBadck f => f.lenOk && !f.valid
  | .cmdFrame feat _ => decide (feat.toNat < Config.nFeatures)
  | .dspIdle => true
  | .dspStart _ feat => decide (feat.toNat < Config.nFeatures)
  | .dspTx _ => true
  | .dspTxEnd => true
  | .dspWallTimeout d => d == 1 || d == 2
  | .dspSuccess => true
  | .dspRetry => true
  | .dspExhaust => true
  | .dspWait => true

end Instr

end Sys2Proof
end

