-- ==== Sys2Proof/Decode.lean ====
section
/-! DEFINITION. The decoder: from what the hardware selects an operation by (a command word, a host access, the
FrameReader's and the dispatcher's selecting signals, the bytes of a frame) to the operation or a named rejection;
and the encoder back. -/
namespace Sys2Proof

/-- Why a code names no operation. -/
inductive DecodeError where
  /-- RSTATE 5..7 with a byte to take: no row of rx_sel4 (45_cycle_step.md R307). -/
  | unreachableRstate
  /-- DSTATE 3: no row of dsp_sel2 (45_cycle_step.md R307). -/
  | unreachableDstate
  /-- CMDFRAME of a feature index 9..15 (30_encoding.md R109). -/
  | noSuchFeature
  /-- Fewer than the ten bytes of the shortest frame (00_scope.md R9). -/
  | shortFrame
  /-- The bytes do not begin with PREAMBLE (30_encoding.md R100). -/
  | noPreamble
  /-- The number of bytes is not FLEN of the LEN byte (30_encoding.md R104). -/
  | wrongLength
  deriving DecidableEq, Repr

/-- What selects the FrameReader's operation (40_frame_reader.md R140): the ports, RX_EN, and the row selector
{RSTATE, KCNT} of format rx_sel4, with the received byte. -/
structure RxSel where
  chanFail : Bool
  rxEn : Bool
  rxValid : Bool
  rstate : BitVec 3
  kcnt : BitVec 1
  data : Byte
  deriving DecidableEq, Repr

/-- What selects the dispatcher's operation (43_command_dispatcher.md R230, R233, R236): DSTATE (format dsp_sel2) and
the conditions of the table's rows. -/
structure DspSel where
  dstate : BitVec 2
  /-- The legal SETF written in this cycle, if any: desired state and feature index. -/
  start : Option (Bool × BitVec 4)
  tmo : Bool
  ready : Bool
  /-- TXIDX = 11. -/
  last : Bool
  fresh : Bool
  matched : Bool
  /-- ATT < MAX_ATTEMPTS. -/
  attLeft : Bool
  deriving DecidableEq, Repr

/-- An encoded operation, one constructor per format of the opcode table. -/
inductive Code where
  /-- Format host_cmd16. -/
  | cmd (w : Half)
  /-- Format host_addr5: `h_we`, `h_addr`, `h_wdata`. -/
  | host (we : Bool) (addr : BitVec 5) (wdata : Half)
  /-- Format rx_sel4. -/
  | rx (sel : RxSel)
  /-- Format bus_frame: the frame's bytes, preamble first. -/
  | frame (bytes : List Byte)
  /-- Format bus_frame_tx: C_FEAT and C_ST. -/
  | tx (feat : BitVec 4) (st : Bool)
  /-- Format dsp_sel2. -/
  | dsp (sel : DspSel)
  deriving DecidableEq, Repr

/-- The host command word (30_encoding.md R112 to R116). Every word is some operation. -/
def decodeCmd (w : Half) : Instr :=
  let op := (w.extractLsb' 12 4).toNat
  if op = 0 then
    if w.extractLsb' 0 12 = 0 then .nop else .illegalNop (w.extractLsb' 0 12)
  else if op = 1 then
    if w.extractLsb' 5 7 = 0 ∧ (w.extractLsb' 0 4).toNat < Config.nFeatures then
      .setf (w.getLsbD 4) (w.extractLsb' 0 4)
    else .illegalSetf (w.extractLsb' 5 7) (w.getLsbD 4) (w.extractLsb' 0 4)
  else if op = 2 then
    if w.extractLsb' 3 9 = 0 then .clr (w.getLsbD 2) (w.getLsbD 1) (w.getLsbD 0)
    else .illegalClr (w.extractLsb' 3 9) (w.extractLsb' 0 3)
  else if op = 3 then .illegalOp3 (w.extractLsb' 0 12)
  else if op < 8 then .illegalOp4to7 (w.extractLsb' 0 14)
  else .illegalOp8toF (w.extractLsb' 0 15)

/-- A host access: a write where `h_we` is 1 (44_host_interface.md R272, R273, R274), else a read (R271). -/
def decodeHost (we : Bool) (addr : BitVec 5) (wdata : Half) : Instr :=
  if we then
    if addr = 0 then .regWriteCtrl wdata
    else if addr = 1 then .regWriteCmd wdata
    else .regWriteOther addr wdata
  else .regRead addr

/-- The FrameReader's selection, in the order of 40_frame_reader.md R140. -/
def decodeRx (x : RxSel) : Except DecodeError Instr :=
  if x.chanFail then .ok .rxFail
  else if x.rstate = 4 then .ok .rxDead
  else if !x.rxEn then .ok .rxOff
  else if !x.rxValid then .ok .rxNone
  else if x.rstate = 0 then .ok (.rxHunt x.data)
  else if x.rstate = 1 then .ok (.rxHdr x.data)
  else if x.rstate = 2 then .ok (.rxPay x.data)
  else if x.rstate = 3 then
    if x.kcnt = 0 then .ok (.rxCk0 x.data) else .ok (.rxCk1 x.data)
  else .error .unreachableRstate

/-- The dispatcher's selection: R232 and R243 in IDLE, R233 in TX, R236 in WAIT (43_command_dispatcher.md). -/
def decodeDsp (x : DspSel) : Except DecodeError Instr :=
  if x.dstate = 0 then
    match x.start with
    | some (st, feat) => .ok (.dspStart st feat)
    | none => .ok .dspIdle
  else if x.dstate = 1 then
    if x.tmo then .ok (.dspWallTimeout 1)
    else if x.ready && x.last then .ok .dspTxEnd
    else .ok (.dspTx x.ready)
  else if x.dstate = 2 then
    if x.fresh && x.matched then .ok .dspSuccess
    else if x.tmo then .ok (.dspWallTimeout 2)
    else if x.fresh && x.attLeft then .ok .dspRetry
    else if x.fresh then .ok .dspExhaust
    else .ok .dspWait
  else .error .unreachableDstate

/-- What a received frame is: rejected (41_frame_validator.md R174), or its class (42_status_decoder.md R190). -/
def frameInstr (c : Params) (f : Frame) : Instr :=
  if f.valid then
    match f.kind c with
    | .telem => .frameTelem f
    | .status => .frameStatus f
    | .skip => .frameSkip f
  else .frameBadck f

/-- A whole frame from its bytes (30_encoding.md R100, R104). -/
def decodeFrame (c : Params) (bs : List Byte) : Except DecodeError Instr :=
  match bs with
  | p0 :: p1 :: p2 :: p3 :: dst :: src :: cmd :: len :: rest =>
    if (Quad.mk p0 p1 p2 p3) = c.preamble then
      if rest.length = len.toNat + Config.ckLen then
        .ok (frameInstr c
          { dst := dst, src := src, cmd := cmd, len := len, payload := rest.take len.toNat,
            ckh := rest.getD len.toNat 0, ckl := rest.getD (len.toNat + 1) 0 })
      else .error .wrongLength
    else .error .noPreamble
  | _ => .error .shortFrame

/-- The decoder, total on every code. -/
def decode (c : Params) : Code → Except DecodeError Instr
  | .cmd w => .ok (decodeCmd w)
  | .host we addr wdata => .ok (decodeHost we addr wdata)
  | .rx sel => decodeRx sel
  | .frame bytes => decodeFrame c bytes
  | .tx feat st => if feat.toNat < Config.nFeatures then .ok (.cmdFrame feat st) else .error .noSuchFeature
  | .dsp sel => decodeDsp sel

/-- The FrameReader's signals with RSTATE, KCNT and a byte to take. -/
def rxTaking (rstate : BitVec 3) (kcnt : BitVec 1) (b : Byte) : RxSel :=
  { chanFail := false, rxEn := true, rxValid := true, rstate := rstate, kcnt := kcnt, data := b }

/-- The dispatcher's signals with DSTATE and every condition 0. -/
def dspQuiet (dstate : BitVec 2) : DspSel :=
  { dstate := dstate, start := none, tmo := false, ready := false, last := false, fresh := false, matched := false,
    attLeft := false }

/-- The encoder: the code of a well-formed operation, from the opcode table's encodings. Where a row's selector has
bits that do not matter (an x in the table), the code holds 0 there. -/
def encode (c : Params) : Instr → Code
  | .nop => .cmd 0x0000
  | .setf st feat => .cmd (1#4 ++ 0#7 ++ BitVec.ofBool st ++ feat)
  | .clr cnt err done => .cmd (2#4 ++ 0#9 ++ BitVec.ofBool cnt ++ BitVec.ofBool err ++ BitVec.ofBool done)
  | .illegalNop rsv => .cmd (0#4 ++ rsv)
  | .illegalSetf rsv st feat => .cmd (1#4 ++ rsv ++ BitVec.ofBool st ++ feat)
  | .illegalClr rsv low => .cmd (2#4 ++ rsv ++ low)
  | .illegalOp3 rest => .cmd (3#4 ++ rest)
  | .illegalOp4to7 rest => .cmd (1#2 ++ rest)
  | .illegalOp8toF rest => .cmd (1#1 ++ rest)
  | .regRead addr => .host false addr 0
  | .regWriteCtrl v => .host true 0 v
  | .regWriteCmd w => .host true 1 w
  | .regWriteOther addr v => .host true addr v
  | .rxFail => .rx { rxTaking 0 0 0 with chanFail := true }
  | .rxDead => .rx (rxTaking 4 0 0)
  | .rxOff => .rx { rxTaking 0 0 0 with rxEn := false }
  | .rxNone => .rx { rxTaking 0 0 0 with rxValid := false }
  | .rxHunt b => .rx (rxTaking 0 0 b)
  | .rxHdr b => .rx (rxTaking 1 0 b)
  | .rxPay b => .rx (rxTaking 2 0 b)
  | .rxCk0 b => .rx (rxTaking 3 0 b)
  | .rxCk1 b => .rx (rxTaking 3 1 b)
  | .frameTelem f => .frame (f.bytes c)
  | .frameStatus f => .frame (f.bytes c)
  | .frameSkip f => .frame (f.bytes c)
  | .frameBadck f => .frame (f.bytes c)
  | .cmdFrame feat st => .tx feat st
  | .dspIdle => .dsp (dspQuiet 0)
  | .dspStart st feat => .dsp { dspQuiet 0 with start := some (st, feat) }
  | .dspTx ready => .dsp { dspQuiet 1 with ready := ready }
  | .dspTxEnd => .dsp { dspQuiet 1 with ready := true, last := true }
  | .dspWallTimeout d => .dsp { dspQuiet d with tmo := true }
  | .dspSuccess => .dsp { dspQuiet 2 with fresh := true, matched := true }
  | .dspRetry => .dsp { dspQuiet 2 with fresh := true, attLeft := true }
  | .dspExhaust => .dsp { dspQuiet 2 with fresh := true }
  | .dspWait => .dsp (dspQuiet 2)

/-- The code that a word of the opcode table stands for. 16 bits are a command word. The table's formats host_addr5,
rx_sel4 and dsp_sel2 all give words of 8 bits and share them; a word of 8 bits is read by the row with the most fixed
bits, the FrameReader's rows with a byte 0x00 to take, a host write with data 0x0000, and a word that no row with fixed
bits takes as a host read. DESIGN CHOICE (log 5, safe): nothing in FSX decodes such a word. -/
def tableCode (nbits w : Nat) : Option Code :=
  if nbits = 16 then
    if w < 65536 then some (.cmd (BitVec.ofNat 16 w)) else none
  else if nbits = 8 then
    if w ≤ 1 then some (.host true (BitVec.ofNat 5 w) 0)
    else if w < 10 then some (.rx (rxTaking (BitVec.ofNat 3 (w / 2)) (BitVec.ofNat 1 w) 0))
    else if w < 32 then some (.host false (BitVec.ofNat 5 w) 0)
    else none
  else none

/-- The operation the decoder reads from a word of the opcode table. -/
def decodeTableWord (nbits w : Nat) : Option Instr :=
  match tableCode nbits w with
  | none => none
  | some code =>
    match decode Config.tcfg code with
    | .ok i => some i
    | .error _ => none

end Sys2Proof
end

