-- ==== Sys2Proof/Machine/State.lean ====
section
/-! DEFINITION. The state of FSX (10_state.md R36 to R46), the model's own fields beside it, the reasons a step can
stop, and the state after reset (10_state.md R70). -/
namespace Sys2Proof.Machine

/-- Why a step has no next state although the operation is known. -/
inductive Fault where
  /-- A step from a state whose RSTATE, DSTATE, WFILL, TXIDX, ATT or C_FEAT no rule produces (45_cycle_step.md R307;
  log 9). Raised by the cycle. Safe: no run reaches such a state. -/
  | unreachableEncoding
  /-- RX.PAY with PCNT = 255: PBUF[255] does not exist (10_state.md R39; log 10). Raised by RX.PAY. Safe: PCNT < F_LEN
  whenever RSTATE = PAY in a run. -/
  | noPayloadSlot
  /-- A byte of CMDFRAME that does not exist: TXIDX above 11, or a feature index above 8 (30_encoding.md R109; log 11).
  Raised by CMDFRAME, DSP.TX and DSP.TX_END. Safe: excluded by the states a run reaches. -/
  | noCommandByte
  /-- A frame decode that would read a payload byte beyond LEN (00_scope.md R8; log 13). Raised by FRAME.TELEM and
  FRAME.STATUS. Safe: a well-formed configuration excludes it for a frame of that class. -/
  | noPayloadByte
  deriving DecidableEq, Repr

/-- Why the model gives a step no meaning. -/
inductive Refusal where
  /-- The configuration breaks 00_scope.md R8, which asks a model to refuse it. Raised by the cycle. Safe. -/
  | badConfig
  /-- An operation without a meaning. No arm uses it. Safe. -/
  | notModelled (mnemonic : String)
  deriving DecidableEq, Repr

/-- The error and event kinds of 60_exceptions.md R320 with what each records. No register of FSX holds one. -/
inductive Event where
  | framingError
  | checksumMismatch (transmitted computed : Half)
  | decodeSkip
  /-- CAUSE and ABORTED of the command that ended. -/
  | timeoutError (cause aborted : Bool)
  | illegalOp
  | cmdOverrun
  | linkFail
  deriving DecidableEq, Repr

/-- CTRL (10_state.md R36, R48). -/
structure Ctrl where
  rxEn : Bool
  ieDone : Bool
  ieErr : Bool
  deriving DecidableEq, Repr

/-- The payload buffer PBUF[0..254] (10_state.md R39): the entries that differ from 0x00, by rising index (log 14). -/
abbrev Pbuf := List Host.Cell

/-- FrameReader state (10_state.md R37, R38, R39). -/
structure Reader where
  rstate : BitVec 3
  win : Quad
  wfill : BitVec 3
  fDst : Byte
  fSrc : Byte
  fCmd : Byte
  fLen : Byte
  hcnt : BitVec 2
  pcnt : BitVec 8
  kcnt : BitVec 1
  ckh : Byte
  sum : Half
  pbuf : Pbuf
  deriving DecidableEq, Repr

/-- The status snapshot with its valid bits (10_state.md R40). -/
structure Snapshot where
  equip : BitVec 9
  hour : Byte
  minute : Byte
  wtemp : Byte
  atemp : Byte
  sSrc : Byte
  sDst : Byte
  pwatt : Half
  prpm : Half
  ts : BitVec 32
  vEquip : Bool
  vTime : Bool
  vWtemp : Bool
  vAtemp : Bool
  vAddr : Bool
  vPump : Bool
  vTs : Bool
  deriving DecidableEq, Repr

/-- StatusStore: snapshot, freshness flag and update counter (10_state.md R40, R41, R42). -/
structure Store where
  snap : Snapshot
  fresh : Bool
  seq : Half
  deriving DecidableEq, Repr

/-- Validator diagnostics (10_state.md R43). -/
structure Diag where
  ckRx : Half
  ckCalc : Half
  cntOk : Half
  cntCkerr : Half
  lfDst : Byte
  lfSrc : Byte
  lfCmd : Byte
  lfLen : Byte
  deriving DecidableEq, Repr

/-- CommandDispatcher sequencing state (10_state.md R45). ELAPSED is a natural number: R45 asks for a width that holds
TIMEOUT_TICKS + 1 (log 12). -/
structure Dispatcher where
  dstate : BitVec 2
  cFeat : BitVec 4
  cSt : Bool
  att : BitVec 4
  txidx : BitVec 4
  elapsed : Nat
  deriving DecidableEq, Repr

/-- Command completion flags (10_state.md R45). `result` 1 is TIMEOUT. -/
structure Completion where
  done : Bool
  result : Bool
  cause : Bool
  aborted : Bool
  deriving DecidableEq, Repr

/-- Sticky error flags (10_state.md R46). -/
structure Errors where
  illegalOp : Bool
  cmdOverrun : Bool
  linkFail : Bool
  deriving DecidableEq, Repr

/-- The output ports of one cycle (10_state.md R31, R32). -/
structure Outputs where
  txValid : Bool
  txData : Byte
  hRdata : Half
  irq : Bool
  linkFail : Bool
  deriving DecidableEq, Repr

/-- The state of the machine. `cfg`, `tape`, `cycle`, `out` and `events` are the model's own (log 1 to 4); every other
field is a register of FSX. -/
structure State where
  /-- The configuration of the instance; no step changes it (10_state.md R33). -/
  cfg : Params
  /-- The inputs of the next cycles, in order. -/
  tape : List CycleIn
  /-- Cycles stepped so far; the free input of a cycle without a tape entry is applied to it. -/
  cycle : Nat
  /-- The output ports in the cycle that ended in this state. -/
  out : Outputs
  /-- The events raised in the cycle that ended in this state. -/
  events : List Event
  ctrl : Ctrl
  rx : Reader
  store : Store
  diag : Diag
  /-- NOW (10_state.md R44). -/
  now : BitVec 32
  dsp : Dispatcher
  res : Completion
  err : Errors
  deriving DecidableEq, Repr

/-- No port shows anything: the model's own value for a state that no cycle has ended in (log 3). -/
def Outputs.none : Outputs := { txValid := false, txData := 0, hRdata := 0, irq := false, linkFail := false }

/-- The snapshot after reset: every field absent (10_state.md R70). -/
def Snapshot.reset : Snapshot :=
  { equip := 0, hour := 0, minute := 0, wtemp := 0, atemp := 0, sSrc := 0, sDst := 0, pwatt := 0, prpm := 0, ts := 0,
    vEquip := false, vTime := false, vWtemp := false, vAtemp := false, vAddr := false, vPump := false, vTs := false }

/-- The FrameReader after reset (10_state.md R70). -/
def Reader.reset : Reader :=
  { rstate := 0, win := ⟨0, 0, 0, 0⟩, wfill := 0, fDst := 0, fSrc := 0, fCmd := 0, fLen := 0, hcnt := 0, pcnt := 0,
    kcnt := 0, ckh := 0, sum := 0, pbuf := [] }

/-- The reset state (10_state.md R70) of an instance with configuration `c`, before any cycle, with inputs `tape`. -/
def State.powerOn (c : Params) (tape : List CycleIn) : State where
  cfg := c
  tape := tape
  cycle := 0
  out := Outputs.none
  events := []
  ctrl := { rxEn := true, ieDone := false, ieErr := false }
  rx := Reader.reset
  store := { snap := Snapshot.reset, fresh := false, seq := 0 }
  diag := { ckRx := 0, ckCalc := 0, cntOk := 0, cntCkerr := 0, lfDst := 0, lfSrc := 0, lfCmd := 0, lfLen := 0 }
  now := 0
  dsp := { dstate := 0, cFeat := 0, cSt := false, att := 0, txidx := 0, elapsed := 0 }
  res := { done := false, result := false, cause := false, aborted := false }
  err := { illegalOp := false, cmdOverrun := false, linkFail := false }

/-- The machine right after reset, for TCFG (log 1) and with no input listed (log 2). -/
def State.reset : State := State.powerOn Config.tcfg []

end Sys2Proof.Machine
end

