-- ==== Sys2Proof/Machine/Flags.lean ====
section
/-! DEFINITION. The predicates and flag computations of FSX: BUSY, TMO, MATCH, irq, saturating counts, the range
check of R307, and the codes of the states. -/
namespace Sys2Proof.Machine

/-- RSTATE codes (10_state.md R37). -/
abbrev rHunt : BitVec 3 := 0
abbrev rHdr : BitVec 3 := 1
abbrev rPay : BitVec 3 := 2
abbrev rCk : BitVec 3 := 3
abbrev rFailed : BitVec 3 := 4

/-- DSTATE codes (10_state.md R45). -/
abbrev dIdle : BitVec 2 := 0
abbrev dTx : BitVec 2 := 1
abbrev dWait : BitVec 2 := 2

/-- The codes of the events (60_exceptions.md R320). -/
def Event.code : Event → Nat
  | .framingError => 1
  | .checksumMismatch _ _ => 2
  | .decodeSkip => 3
  | .timeoutError _ _ => 4
  | .illegalOp => 5
  | .cmdOverrun => 6
  | .linkFail => 7

/-- `v + 1`, kept at 0xFFFF (00_scope.md R11; 41_frame_validator.md R173). -/
def satIncr (v : Half) : Half := if v = 0xFFFF then 0xFFFF else v + 1

/-- A flag as one bit of a register. -/
abbrev bit (b : Bool) : BitVec 1 := BitVec.ofBool b

namespace State

/-- BUSY = (DSTATE != IDLE) (10_state.md R45). -/
def busy (s : State) : Bool := s.dsp.dstate != dIdle

/-- TMO = (ELAPSED > TIMEOUT_TICKS) (43_command_dispatcher.md R235). -/
def tmo (s : State) : Bool := decide (s.cfg.timeoutTicks < s.dsp.elapsed)

/-- MATCH: the observed value of the command's feature equals the desired state (43_command_dispatcher.md R237). -/
def matched (s : State) : Bool := s.store.snap.vEquip && (s.store.snap.equip.getLsbD s.dsp.cFeat.toNat == s.dsp.cSt)

/-- ATT < MAX_ATTEMPTS (43_command_dispatcher.md R236). -/
def attLeft (s : State) : Bool := decide (s.dsp.att.toNat < Config.maxAttempts)

/-- TXIDX = 11, the last byte of the command frame (43_command_dispatcher.md R233). -/
def lastByte (s : State) : Bool := s.dsp.txidx == 11

/-- The interrupt output (44_host_interface.md R279). -/
def irq (s : State) : Bool :=
  (s.ctrl.ieDone && s.res.done) || (s.ctrl.ieErr && (s.err.illegalOp || s.err.cmdOverrun || s.err.linkFail))

/-- Every encoding and counter is one that some rule produces (45_cycle_step.md R307); HCNT, PCNT and KCNT cannot leave
their widths. C_FEAT is in the list because only features 0..8 are ever started (43_command_dispatcher.md R232).
DEDUCED (log 9, safe). -/
def legal (s : State) : Bool :=
  decide (s.rx.rstate.toNat ≤ 4) && decide (s.rx.wfill.toNat ≤ 4) && decide (s.dsp.dstate.toNat ≤ 2) &&
  decide (s.dsp.txidx.toNat ≤ 11) && decide (s.dsp.att.toNat ≤ 5) && decide (s.dsp.cFeat.toNat < Config.nFeatures)

end State

end Sys2Proof.Machine
end

