-- ==== Sys2Proof/Machine/Ops.lean ====
section
/-! DEFINITION. The shared operations over the state: raising an event, PBUF, starting and ending a command, the store
update, acceptance and rejection of a frame, and the reset of a cycle. FSX has no exception entry or return
(60_exceptions.md R330, R331): `State.raise` only records. -/
namespace Sys2Proof.Machine

/-- Go on with `k` where there is a next state; a fault or a refusal stops. -/
def andThen (o : Host.Outcome State Fault Refusal) (k : State → Host.Outcome State Fault Refusal) :
    Host.Outcome State Fault Refusal :=
  match o with
  | .next s => k s
  | .fault r => .fault r
  | .refused r => .refused r

namespace Pbuf

/-- PBUF[i]. An entry that is not listed is 0x00, its reset value (10_state.md R70). -/
def read : Pbuf → Nat → Byte
  | [], _ => 0#8
  | (a, v) :: m, i => if a = i then v else read m i

/-- PBUF[i] := b, keeping the canonical form: rising indices, no entry 0x00. -/
def write : Pbuf → Nat → Byte → Pbuf
  | [], i, b => if b = 0#8 then [] else [(i, b)]
  | (a, v) :: m, i, b =>
    if i < a then if b = 0#8 then (a, v) :: m else (i, b) :: (a, v) :: m
    else if i = a then if b = 0#8 then m else (i, b) :: m
    else (a, v) :: write m i b

/-- The canonical form with every index at least `lo`: rising indices of PBUF[0..254], no entry 0x00. -/
def wfFrom (lo : Nat) : Pbuf → Bool
  | [] => true
  | (a, v) :: m => decide (lo ≤ a) && decide (a < 255) && (v != 0#8) && wfFrom (a + 1) m

/-- The canonical form of PBUF (10_state.md R39). -/
def wf (m : Pbuf) : Bool := wfFrom 0 m

end Pbuf

namespace State

/-- `raise E(info)` (00_scope.md R13): record an event of the cycle. -/
def raise (s : State) (e : Event) : State := { s with events := s.events ++ [e] }

/-- START(f, s) (43_command_dispatcher.md R232). -/
def start (s : State) (st : Bool) (feat : BitVec 4) : State :=
  { s with
    dsp := { dstate := dTx, cFeat := feat, cSt := st, att := 1, txidx := 0, elapsed := 0 }
    res := { done := false, result := false, cause := false, aborted := false } }

/-- ELAPSED after a cycle of TX or WAIT (43_command_dispatcher.md R242). -/
def tick (s : State) : Nat := min (s.dsp.elapsed + 1) (s.cfg.timeoutTicks + 1)

/-- No byte is offered (10_state.md R31; 43_command_dispatcher.md R243). -/
def noTx (s : State) : State := { s with out := { s.out with txValid := false, txData := 0 } }

/-- A byte is offered for transmission (10_state.md R31). -/
def offer (s : State) (b : Byte) : State := { s with out := { s.out with txValid := true, txData := b } }

/-- The command ends with the given completion flags; no byte is offered in the cycle (43_command_dispatcher.md R238,
R240, R241, R242). -/
def finish (s : State) (res : Completion) : State :=
  { s.noTx with dsp := { s.dsp with dstate := dIdle, elapsed := s.tick }, res := res }

/-- A command word with a reserved encoding (44_host_interface.md R278). -/
def illegalCmd (s : State) : State :=
  { s with err := { s.err with illegalOp := true }, events := s.events ++ [.illegalOp] }

/-- STORE_UPDATE (42_status_decoder.md R199, R200): the updated snapshot, FRESH and SEQ at once. -/
def storeUpdate (s : State) (snap : Snapshot) : State :=
  { s with store := { snap := snap, fresh := true, seq := s.store.seq + 1 } }

/-- ACCEPT without the decode (41_frame_validator.md R173). -/
def accept (s : State) (f : Frame) : State :=
  { s with
    diag := { s.diag with
      cntOk := satIncr s.diag.cntOk
      lfDst := f.dst, lfSrc := f.src, lfCmd := f.cmd, lfLen := f.len } }

/-- REJECT (41_frame_validator.md R174). -/
def reject (s : State) (transmitted computed : Half) : State :=
  { s with
    diag := { s.diag with ckRx := transmitted, ckCalc := computed, cntCkerr := satIncr s.diag.cntCkerr }
    events := s.events ++ [.checksumMismatch transmitted computed] }

/-- The FrameReader hunts again after a completed frame (40_frame_reader.md R148). RX.OFF writes the same elements
(R142). -/
def hunt (s : State) : State :=
  { s with rx := { s.rx with rstate := rHunt, wfill := 0, hcnt := 0, pcnt := 0, kcnt := 0 } }

/-- The inputs of the cycle: the head of the tape, or the free input (log 2). -/
def input (s : State) : CycleIn := s.tape.headD (Config.freeInput s.cycle)

/-- The cycle begins: its inputs are taken from the tape and no event has been raised yet. No register changes. -/
def beginCycle (s : State) : State := { s with tape := s.tape.tail, cycle := s.cycle + 1, events := [] }

end State

end Sys2Proof.Machine
end

