-- ==== Sys2Proof/Machine/Operands.lean ====
section
/-! DEFINITION. The operand forms of FSX: the host register map as read by RegRead, the equipment bit mapping, the
sliding window, and the frame that the FrameReader has assembled. -/
namespace Sys2Proof.Machine

/-- EQUIP = {equip2[0], equip1[7:0]} (30_encoding.md R111). -/
def equipOf (e1 e2 : Byte) : BitVec 9 := e2.extractLsb' 0 1 ++ e1

/-- The window after byte `b` (40_frame_reader.md R144). -/
def shiftIn (w : Quad) (b : Byte) : Quad := ⟨w.b1, w.b2, w.b3, b⟩

/-- min(WFILL + 1, 4) (40_frame_reader.md R144). -/
def fillUp (n : BitVec 3) : BitVec 3 := if 4 ≤ n.toNat then 4 else n + 1

/-- (SUM + b) mod 65536 (40_frame_reader.md R145, R146; 41_frame_validator.md R170). -/
def addByte (sum : Half) (b : Byte) : Half := sum + b.setWidth 16

namespace Reader

/-- The frame in progress with its last byte `b` (40_frame_reader.md R148, R155): P[i] is PBUF[i] for i < F_LEN. -/
def frame (r : Reader) (b : Byte) : Frame :=
  { dst := r.fDst, src := r.fSrc, cmd := r.fCmd, len := r.fLen,
    payload := (List.range r.fLen.toNat).map r.pbuf.read, ckh := r.ckh, ckl := b }

end Reader

namespace State

/-- CTRL (10_state.md R48). -/
def regCtrl (s : State) : Half := 0#13 ++ bit s.ctrl.ieErr ++ bit s.ctrl.ieDone ++ bit s.ctrl.rxEn

/-- CMDSTAT (10_state.md R50). -/
def regCmdstat (s : State) : Half :=
  s.dsp.att ++ s.dsp.cFeat ++ 0#2 ++ bit s.dsp.cSt ++ bit s.res.aborted ++ bit s.res.cause ++ bit s.res.result ++
    bit s.res.done ++ bit s.busy

/-- ERR (10_state.md R51). -/
def regErr (s : State) : Half := 0#13 ++ bit s.err.linkFail ++ bit s.err.cmdOverrun ++ bit s.err.illegalOp

/-- RXSTAT (10_state.md R52). -/
def regRxstat (s : State) : Half := 0#10 ++ s.dsp.dstate ++ bit s.store.fresh ++ s.rx.rstate

/-- SNAPV (10_state.md R53). -/
def regSnapv (s : State) : Half :=
  0#9 ++ bit s.store.snap.vTs ++ bit s.store.snap.vPump ++ bit s.store.snap.vAddr ++ bit s.store.snap.vAtemp ++
    bit s.store.snap.vWtemp ++ bit s.store.snap.vTime ++ bit s.store.snap.vEquip

/-- RegRead(a) (44_host_interface.md R271): the register map of 10_state.md R47 to R65. CMD and the reserved addresses
read 0x0000. -/
def regRead (s : State) (a : BitVec 5) : Half :=
  match a.toNat with
  | 0x00 => s.regCtrl
  | 0x02 => s.regCmdstat
  | 0x03 => s.regErr
  | 0x04 => s.regRxstat
  | 0x05 => s.regSnapv
  | 0x06 => 0#7 ++ s.store.snap.equip
  | 0x07 => s.store.snap.hour ++ s.store.snap.minute
  | 0x08 => s.store.snap.atemp ++ s.store.snap.wtemp
  | 0x09 => s.store.snap.sSrc ++ s.store.snap.sDst
  | 0x0A => s.store.snap.pwatt
  | 0x0B => s.store.snap.prpm
  | 0x0C => s.store.snap.ts.extractLsb' 0 16
  | 0x0D => s.store.snap.ts.extractLsb' 16 16
  | 0x0E => s.store.seq
  | 0x0F => s.diag.ckRx
  | 0x10 => s.diag.ckCalc
  | 0x11 => s.diag.cntOk
  | 0x12 => s.diag.cntCkerr
  | 0x13 => s.now.extractLsb' 0 16
  | 0x14 => s.now.extractLsb' 16 16
  | 0x15 => s.diag.lfSrc ++ s.diag.lfDst
  | 0x16 => s.diag.lfCmd ++ s.diag.lfLen
  | _ => 0

/-- The command-frame byte that state TX offers (43_command_dispatcher.md R231). -/
def txByte (s : State) (feat : BitVec 4) (st : Bool) : Option Byte := cmdByte s.cfg feat st s.dsp.txidx.toNat

end State

end Sys2Proof.Machine
end

