-- ==== Sys2Proof/Machine/CommandDispatcher.lean ====
section
/-! DEFINITION. The meanings of the CommandDispatcher's operations and of its byte source
(43_command_dispatcher.md R231 to R243). -/
namespace Sys2Proof.Machine

/-- CMDFRAME(f, s) as the byte source of the cycle (43_command_dispatcher.md R231): byte TXIDX is offered. -/
def execCmdFrame (feat : BitVec 4) (st : Bool) (s : State) : Host.Outcome State Fault Refusal :=
  match s.txByte feat st with
  | some b => .next (s.offer b)
  | none => .fault .noCommandByte

/-- DSP.IDLE (43_command_dispatcher.md R243). -/
def execDspIdle (s : State) : Host.Outcome State Fault Refusal := .next s.noTx

/-- DSP.START (43_command_dispatcher.md R232). The cycle is one of IDLE, so no byte is offered (R243). SETF
writes the same (log 6). -/
def execDspStart (st : Bool) (feat : BitVec 4) (s : State) : Host.Outcome State Fault Refusal :=
  .next (s.start st feat).noTx

/-- DSP.TX_END (43_command_dispatcher.md R234), in the cycle of R233 that transmits byte 11: INVALIDATE clears FRESH
(42_status_decoder.md R201). -/
def execDspTxEnd (s : State) : Host.Outcome State Fault Refusal :=
  andThen (execCmdFrame s.dsp.cFeat s.dsp.cSt s) fun t =>
    .next { t with
      dsp := { s.dsp with txidx := 0, dstate := dWait, elapsed := s.tick }
      store := { s.store with fresh := false } }

/-- DSP.TX without a timeout (43_command_dispatcher.md R233), with `tx_ready` of the cycle. -/
def execDspTx (ready : Bool) (s : State) : Host.Outcome State Fault Refusal :=
  if ready && s.lastByte then execDspTxEnd s
  else
    andThen (execCmdFrame s.dsp.cFeat s.dsp.cSt s) fun t =>
      .next { t with
        dsp := { s.dsp with txidx := if ready then s.dsp.txidx + 1 else s.dsp.txidx, elapsed := s.tick } }

/-- DSP.WALL_TIMEOUT (43_command_dispatcher.md R241): ABORTED tells whether a frame was cut short. -/
def execDspWallTimeout (dstate : BitVec 2) (s : State) : Host.Outcome State Fault Refusal :=
  let aborted := if dstate = dTx then true else s.res.aborted
  .next ((s.finish { done := true, result := true, cause := false, aborted := aborted }).raise
    (.timeoutError false aborted))

/-- DSP.SUCCESS (43_command_dispatcher.md R238). -/
def execDspSuccess (s : State) : Host.Outcome State Fault Refusal :=
  .next (s.finish { s.res with done := true, result := false, cause := false })

/-- DSP.RETRY (43_command_dispatcher.md R239). -/
def execDspRetry (s : State) : Host.Outcome State Fault Refusal :=
  .next { s.noTx with dsp := { s.dsp with att := s.dsp.att + 1, txidx := 0, dstate := dTx, elapsed := s.tick } }

/-- DSP.EXHAUST (43_command_dispatcher.md R240). -/
def execDspExhaust (s : State) : Host.Outcome State Fault Refusal :=
  .next ((s.finish { s.res with done := true, result := true, cause := true }).raise (.timeoutError true s.res.aborted))

/-- DSP.WAIT (43_command_dispatcher.md R236): stay in WAIT. -/
def execDspWait (s : State) : Host.Outcome State Fault Refusal :=
  .next { s.noTx with dsp := { s.dsp with elapsed := s.tick } }

end Sys2Proof.Machine
end

