-- ==== Sys2Proof/Machine/StatusDecoder.lean ====
section
/-! DEFINITION. The meanings of a completed frame (41_frame_validator.md R173, R174; 42_status_decoder.md R191 to R193,
R199): what its acceptance and decode, or its rejection, write. -/
namespace Sys2Proof.Machine

/-- The snapshot after DECODE_TELEM: the update is a merge (42_status_decoder.md R191, R199). -/
def telemSnap (c : Params) (f : Frame) (n : Snapshot) : Snapshot :=
  { n with
    pwatt := beHalf (f.pay c.offPwatt) (f.pay (c.offPwatt + 1))
    prpm := beHalf (f.pay c.offPrpm) (f.pay (c.offPrpm + 1))
    vPump := true }

/-- The snapshot after DECODE_STATUS at time `now`: the update is a merge (42_status_decoder.md R192, R199). -/
def statusSnap (c : Params) (f : Frame) (now : BitVec 32) (n : Snapshot) : Snapshot :=
  { n with
    equip := equipOf (f.pay c.offEq1) (f.pay c.offEq2), vEquip := true
    hour := f.pay c.offHour, minute := f.pay c.offMin, vTime := true
    sSrc := f.src, sDst := f.dst, vAddr := true
    ts := now, vTs := true
    wtemp := if c.offWtemp < f.len.toNat then f.pay c.offWtemp else n.wtemp
    vWtemp := if c.offWtemp < f.len.toNat then true else n.vWtemp
    atemp := if c.offAtemp < f.len.toNat then f.pay c.offAtemp else n.atemp
    vAtemp := if c.offAtemp < f.len.toNat then true else n.vAtemp }

/-- Every payload byte that DECODE_TELEM reads is there (30_encoding.md R108). -/
def telemReadable (c : Params) (f : Frame) : Bool :=
  decide (c.offPwatt + 1 < f.payload.length) && decide (c.offPrpm + 1 < f.payload.length)

/-- Every payload byte that DECODE_STATUS reads is there (30_encoding.md R107). -/
def statusReadable (c : Params) (f : Frame) : Bool :=
  decide (f.len.toNat ≤ f.payload.length) &&
  decide (c.offEq1 < f.payload.length) && decide (c.offEq2 < f.payload.length) &&
  decide (c.offHour < f.payload.length) && decide (c.offMin < f.payload.length)

/-- FRAME.TELEM: ACCEPT and DECODE_TELEM (41_frame_validator.md R173; 42_status_decoder.md R191). -/
def execFrameTelem (f : Frame) (s : State) : Host.Outcome State Fault Refusal :=
  if telemReadable s.cfg f then .next ((s.accept f).storeUpdate (telemSnap s.cfg f s.store.snap))
  else .fault .noPayloadByte

/-- FRAME.STATUS: ACCEPT and DECODE_STATUS (41_frame_validator.md R173; 42_status_decoder.md R192). -/
def execFrameStatus (f : Frame) (s : State) : Host.Outcome State Fault Refusal :=
  if statusReadable s.cfg f then .next ((s.accept f).storeUpdate (statusSnap s.cfg f s.now s.store.snap))
  else .fault .noPayloadByte

/-- FRAME.SKIP: ACCEPT and DECODE_SKIP (41_frame_validator.md R173; 42_status_decoder.md R193). -/
def execFrameSkip (f : Frame) (s : State) : Host.Outcome State Fault Refusal :=
  .next ((s.accept f).raise .decodeSkip)

/-- FRAME.BADCK: REJECT with the transmitted checksum and SUM (41_frame_validator.md R171, R174). -/
def execFrameBadck (f : Frame) (s : State) : Host.Outcome State Fault Refusal :=
  .next (s.reject f.ck s.rx.sum)

end Sys2Proof.Machine
end

