-- ==== Sys2Proof/Machine/FrameReader.lean ====
section
/-! DEFINITION. The meanings of the FrameReader's operations (40_frame_reader.md R141 to R148). -/
namespace Sys2Proof.Machine

/-- RX.FAIL (40_frame_reader.md R141). -/
def execRxFail (s : State) : Host.Outcome State Fault Refusal :=
  .next { s with
    rx := { s.rx with rstate := rFailed }
    err := { s.err with linkFail := true }
    events := s.events ++ [.linkFail] }

/-- RX.DEAD (40_frame_reader.md R141): no change. -/
def execRxDead (s : State) : Host.Outcome State Fault Refusal := .next s

/-- RX.OFF (40_frame_reader.md R142). -/
def execRxOff (s : State) : Host.Outcome State Fault Refusal := .next s.hunt

/-- RX.NONE (40_frame_reader.md R143): no change. -/
def execRxNone (s : State) : Host.Outcome State Fault Refusal := .next s

/-- RX.HUNT (40_frame_reader.md R144). A byte that completes no match is FramingError (60_exceptions.md R321;
log 15). -/
def execRxHunt (b : Byte) (s : State) : Host.Outcome State Fault Refusal :=
  let w := shiftIn s.rx.win b
  let fill := fillUp s.rx.wfill
  if fill = 4 ∧ w = s.cfg.preamble then
    .next { s with rx := { s.rx with win := w, wfill := fill, rstate := rHdr, hcnt := 0, sum := 0 } }
  else
    .next { s with rx := { s.rx with win := w, wfill := fill }, events := s.events ++ [.framingError] }

/-- RX.HDR (40_frame_reader.md R145). -/
def execRxHdr (b : Byte) (s : State) : Host.Outcome State Fault Refusal :=
  let sum := addByte s.rx.sum b
  match s.rx.hcnt.toNat with
  | 0 => .next { s with rx := { s.rx with fDst := b, sum := sum, hcnt := 1 } }
  | 1 => .next { s with rx := { s.rx with fSrc := b, sum := sum, hcnt := 2 } }
  | 2 => .next { s with rx := { s.rx with fCmd := b, sum := sum, hcnt := 3 } }
  | _ => .next { s with
           rx := { s.rx with
             fLen := b, sum := sum, pcnt := 0, kcnt := 0, rstate := if b = 0 then rCk else rPay } }

/-- RX.PAY (40_frame_reader.md R146). PBUF[255] does not exist (log 10). -/
def execRxPay (b : Byte) (s : State) : Host.Outcome State Fault Refusal :=
  let p := s.rx.pcnt.toNat
  if p = 255 then .fault .noPayloadSlot
  else if p + 1 = s.rx.fLen.toNat then
    .next { s with
      rx := { s.rx with
        pbuf := s.rx.pbuf.write p b, sum := addByte s.rx.sum b, pcnt := s.rx.pcnt + 1, rstate := rCk, kcnt := 0 } }
  else
    .next { s with
      rx := { s.rx with pbuf := s.rx.pbuf.write p b, sum := addByte s.rx.sum b, pcnt := s.rx.pcnt + 1 } }

/-- RX.CK0 (40_frame_reader.md R147). -/
def execRxCk0 (b : Byte) (s : State) : Host.Outcome State Fault Refusal :=
  .next { s with rx := { s.rx with ckh := b, kcnt := 1 } }

/-- VALIDATE and what it leads to (41_frame_validator.md R171; 42_status_decoder.md R190), for the assembled frame. -/
def completeFrame (f : Frame) (s : State) : Host.Outcome State Fault Refusal :=
  if f.ck = s.rx.sum then
    match f.kind s.cfg with
    | .telem => execFrameTelem f s
    | .status => execFrameStatus f s
    | .skip => execFrameSkip f s
  else execFrameBadck f s

/-- RX.CK1 (40_frame_reader.md R148): the frame is validated and decoded, and the FrameReader hunts again. -/
def execRxCk1 (b : Byte) (s : State) : Host.Outcome State Fault Refusal :=
  andThen (completeFrame (s.rx.frame b) s) fun t => .next t.hunt

end Sys2Proof.Machine
end

