-- ==== Sys2Proof/Machine/HostCommand.lean ====
section
/-! DEFINITION. The meanings of the host command words (44_host_interface.md R275 to R278): NOP, SETF, CLR and the
illegal words. -/
namespace Sys2Proof.Machine

/-- NOP (44_host_interface.md R275). -/
def execNop (s : State) : Host.Outcome State Fault Refusal := .next s

/-- SETF(f, s) (44_host_interface.md R276): START in IDLE, else the command is refused and CMD_OVERRUN records it. -/
def execSetf (st : Bool) (feat : BitVec 4) (s : State) : Host.Outcome State Fault Refusal :=
  if s.dsp.dstate = dIdle then .next (s.start st feat)
  else .next { s with err := { s.err with cmdOverrun := true }, events := s.events ++ [.cmdOverrun] }

/-- CLR(r, e, c) (44_host_interface.md R277). -/
def execClr (cnt err done : Bool) (s : State) : Host.Outcome State Fault Refusal :=
  .next { s with
    res := if done then { done := false, result := false, cause := false, aborted := false } else s.res
    err := if err then { s.err with illegalOp := false, cmdOverrun := false } else s.err
    diag := if cnt then { s.diag with cntOk := 0, cntCkerr := 0 } else s.diag }

/-- ILLEGAL.NOP (44_host_interface.md R278; 30_encoding.md R116(b)). -/
def execIllegalNop (_rsv : BitVec 12) (s : State) : Host.Outcome State Fault Refusal := .next s.illegalCmd

/-- ILLEGAL.SETF (44_host_interface.md R278; 30_encoding.md R116(c)): no CMD_OVERRUN, whatever DSTATE is. -/
def execIllegalSetf (_rsv : BitVec 7) (_st : Bool) (_feat : BitVec 4) (s : State) : Host.Outcome State Fault Refusal :=
  .next s.illegalCmd

/-- ILLEGAL.CLR (44_host_interface.md R278; 30_encoding.md R116(d)). -/
def execIllegalClr (_rsv : BitVec 9) (_low : BitVec 3) (s : State) : Host.Outcome State Fault Refusal :=
  .next s.illegalCmd

/-- ILLEGAL.OP3 (44_host_interface.md R278; 30_encoding.md R116(a)). -/
def execIllegalOp3 (_rest : BitVec 12) (s : State) : Host.Outcome State Fault Refusal := .next s.illegalCmd

/-- ILLEGAL.OP4_7 (44_host_interface.md R278; 30_encoding.md R116(a)). -/
def execIllegalOp4to7 (_rest : BitVec 14) (s : State) : Host.Outcome State Fault Refusal := .next s.illegalCmd

/-- ILLEGAL.OP8_F (44_host_interface.md R278; 30_encoding.md R116(a)). -/
def execIllegalOp8toF (_rest : BitVec 15) (s : State) : Host.Outcome State Fault Refusal := .next s.illegalCmd

end Sys2Proof.Machine
end

