-- ==== Sys2Proof/Machine/RegAccess.lean ====
section
/-! DEFINITION. The meanings of the host register accesses (44_host_interface.md R271 to R274). -/
namespace Sys2Proof.Machine

/-- ILLEGAL(w) (30_encoding.md R116). -/
def illegalWord (w : Half) : Bool :=
  let op := (w.extractLsb' 12 4).toNat
  decide (3 ≤ op) ||
  (op == 0 && w.extractLsb' 0 12 != 0) ||
  (op == 1 && (w.extractLsb' 5 7 != 0 || decide (Config.nFeatures ≤ (w.extractLsb' 0 4).toNat))) ||
  (op == 2 && w.extractLsb' 3 9 != 0)

/-- REG_READ (44_host_interface.md R271): `h_rdata` shows the register; no register changes. -/
def execRegRead (addr : BitVec 5) (s : State) : Host.Outcome State Fault Refusal :=
  .next { s with out := { s.out with hRdata := s.regRead addr } }

/-- REG_WRITE.CTRL (44_host_interface.md R272). -/
def execRegWriteCtrl (v : Half) (s : State) : Host.Outcome State Fault Refusal :=
  .next { s with ctrl := { rxEn := v.getLsbD 0, ieDone := v.getLsbD 1, ieErr := v.getLsbD 2 } }

/-- REG_WRITE.CMD: the operation decoder of 44_host_interface.md R273. The word is not stored. -/
def execRegWriteCmd (w : Half) (s : State) : Host.Outcome State Fault Refusal :=
  if illegalWord w then .next s.illegalCmd
  else if w.extractLsb' 12 4 = 0 then execNop s
  else if w.extractLsb' 12 4 = 1 then execSetf (w.getLsbD 4) (w.extractLsb' 0 4) s
  else execClr (w.getLsbD 2) (w.getLsbD 1) (w.getLsbD 0) s

/-- REG_WRITE.OTHER (44_host_interface.md R274): nothing changes. -/
def execRegWriteOther (_addr : BitVec 5) (_v : Half) (s : State) : Host.Outcome State Fault Refusal := .next s

end Sys2Proof.Machine
end

