-- ==== Sys2Proof/Machine/Dispatch.lean ====
section
/-! DEFINITION. The meaning of every operation, one arm per constructor of `Instr`. -/
namespace Sys2Proof.Machine

def exec (i : Instr) (s : State) : Host.Outcome State Fault Refusal :=
  match i with
  -- format host_cmd16
  | .nop => Sys2Proof.Machine.execNop s
  | .setf st feat => Sys2Proof.Machine.execSetf st feat s
  | .clr cnt err done => Sys2Proof.Machine.execClr cnt err done s
  | .illegalNop rsv => Sys2Proof.Machine.execIllegalNop rsv s
  | .illegalSetf rsv st feat => Sys2Proof.Machine.execIllegalSetf rsv st feat s
  | .illegalClr rsv low => Sys2Proof.Machine.execIllegalClr rsv low s
  | .illegalOp3 rest => Sys2Proof.Machine.execIllegalOp3 rest s
  | .illegalOp4to7 rest => Sys2Proof.Machine.execIllegalOp4to7 rest s
  | .illegalOp8toF rest => Sys2Proof.Machine.execIllegalOp8toF rest s
  -- format host_addr5
  | .regRead addr => Sys2Proof.Machine.execRegRead addr s
  | .regWriteCtrl v => Sys2Proof.Machine.execRegWriteCtrl v s
  | .regWriteCmd w => Sys2Proof.Machine.execRegWriteCmd w s
  | .regWriteOther addr v => Sys2Proof.Machine.execRegWriteOther addr v s
  -- format rx_sel4
  | .rxFail => Sys2Proof.Machine.execRxFail s
  | .rxDead => Sys2Proof.Machine.execRxDead s
  | .rxOff => Sys2Proof.Machine.execRxOff s
  | .rxNone => Sys2Proof.Machine.execRxNone s
  | .rxHunt b => Sys2Proof.Machine.execRxHunt b s
  | .rxHdr b => Sys2Proof.Machine.execRxHdr b s
  | .rxPay b => Sys2Proof.Machine.execRxPay b s
  | .rxCk0 b => Sys2Proof.Machine.execRxCk0 b s
  | .rxCk1 b => Sys2Proof.Machine.execRxCk1 b s
  -- format bus_frame
  | .frameTelem f => Sys2Proof.Machine.execFrameTelem f s
  | .frameStatus f => Sys2Proof.Machine.execFrameStatus f s
  | .frameSkip f => Sys2Proof.Machine.execFrameSkip f s
  | .frameBadck f => Sys2Proof.Machine.execFrameBadck f s
  -- format bus_frame_tx
  | .cmdFrame feat st => Sys2Proof.Machine.execCmdFrame feat st s
  -- format dsp_sel2
  | .dspIdle => Sys2Proof.Machine.execDspIdle s
  | .dspStart st feat => Sys2Proof.Machine.execDspStart st feat s
  | .dspTx ready => Sys2Proof.Machine.execDspTx ready s
  | .dspTxEnd => Sys2Proof.Machine.execDspTxEnd s
  | .dspWallTimeout dstate => Sys2Proof.Machine.execDspWallTimeout dstate s
  | .dspSuccess => Sys2Proof.Machine.execDspSuccess s
  | .dspRetry => Sys2Proof.Machine.execDspRetry s
  | .dspExhaust => Sys2Proof.Machine.execDspExhaust s
  | .dspWait => Sys2Proof.Machine.execDspWait s

end Sys2Proof.Machine
end

