-- ==== Sys2Proof/Machine/Cycle.lean ====
section
/-! DEFINITION. One clock cycle (45_cycle_step.md R300): the operation each unit performs, selected from the state and
the inputs, its execution, and the merge of the writes (R303). -/
namespace Sys2Proof.Machine

namespace State

/-- The FrameReader's selecting signals (40_frame_reader.md R140). -/
def rxSel (s : State) (i : CycleIn) : RxSel :=
  { chanFail := i.chanFail, rxEn := s.ctrl.rxEn, rxValid := i.rxValid, rstate := s.rx.rstate, kcnt := s.rx.kcnt,
    data := i.rxData }

/-- The legal SETF written in a cycle, if any (44_host_interface.md R273). -/
def startOf (i : CycleIn) : Option (Bool × BitVec 4) :=
  if i.hWe && i.hAddr == 1 && !illegalWord i.hWdata && i.hWdata.extractLsb' 12 4 == 1 then
    some (i.hWdata.getLsbD 4, i.hWdata.extractLsb' 0 4)
  else none

/-- The dispatcher's selecting signals (43_command_dispatcher.md R230, R233, R236). -/
def dspSel (s : State) (i : CycleIn) : DspSel :=
  { dstate := s.dsp.dstate, start := startOf i, tmo := s.tmo, ready := i.txReady, last := s.lastByte,
    fresh := s.store.fresh, matched := s.matched, attLeft := s.attLeft }

/-- The read port's code: a read is performed in every cycle (44_host_interface.md R270). -/
def readCode (i : CycleIn) : Code := .host false i.hAddr 0

/-- The host access of the cycle: its write if `h_we` is 1 (44_host_interface.md R270). -/
def hostCode (i : CycleIn) : Code := .host i.hWe i.hAddr i.hWdata

/-- The state the dispatcher's operation runs on: the start of the cycle, with DONE, RESULT, CAUSE and ABORTED as the
host's operation leaves them, so that a completion overrides a clear (45_cycle_step.md R303). The dispatcher's
operations read none of these four. -/
def forDispatcher (s h : State) : State := { s with res := h.res }

/-- The state the FrameReader's operation runs on: the start of the cycle, with base(CNT_OK) and base(CNT_CKERR) as the
host's operation leaves them, and FRESH as the dispatcher's INVALIDATE leaves it, so that a STORE_UPDATE overrides it
(45_cycle_step.md R303). The FrameReader's operations read none of the three but to count. -/
def forReader (s h d : State) : State := { s with diag := h.diag, store := { s.store with fresh := d.store.fresh } }

/-- The merge (45_cycle_step.md R303): each element from the unit that writes it. `s` is the start of the cycle, `q` the
read port, `h` the host, `d` the dispatcher, `r` the FrameReader. NOW counts the cycle (R302). The outputs are those of
R301. -/
def merge (s q h d r : State) : State :=
  { s with
    out := { txValid := d.out.txValid, txData := d.out.txData, hRdata := q.out.hRdata, irq := s.irq,
             linkFail := s.err.linkFail }
    events := h.events ++ r.events ++ d.events
    ctrl := h.ctrl
    rx := r.rx
    store := r.store
    diag := r.diag
    now := s.now + 1
    dsp := d.dsp
    res := d.res
    err := { illegalOp := h.err.illegalOp, cmdOverrun := h.err.cmdOverrun, linkFail := r.err.linkFail } }

/-- A reset cycle (45_cycle_step.md R300, R304; 70_reset_and_hazards.md R350, R351): every register takes its reset value,
no byte is offered, and the other outputs show the state before. The configuration stays. -/
def resetCycle (s : State) (i : CycleIn) : State :=
  { State.powerOn s.cfg s.tape.tail with
    cycle := s.cycle + 1
    out := { txValid := false, txData := 0, hRdata := s.regRead i.hAddr, irq := s.irq, linkFail := s.err.linkFail } }

end State

/-- One unit of the cycle: the operation that its code selects. A code that selects none is an encoding no rule
produces (45_cycle_step.md R307). -/
def runUnit (code : Code) (s : State) : Host.Outcome State Fault Refusal :=
  match decode s.cfg code with
  | .ok i => exec i s
  | .error _ => .fault .unreachableEncoding

/-- The four units of a cycle without reset, on the state `s` at its start, and the merge. -/
def runUnits (i : CycleIn) (s : State) : Host.Outcome State Fault Refusal :=
  andThen (runUnit (State.readCode i) s) fun q =>
  andThen (runUnit (State.hostCode i) s) fun h =>
  andThen (runUnit (.dsp (s.dspSel i)) (s.forDispatcher h)) fun d =>
  andThen (runUnit (.rx (s.rxSel i)) (s.forReader h d)) fun r =>
  .next (s.merge q h d r)

/-- One clock cycle. A configuration that breaks 00_scope.md R8 has no meaning. Reset comes before everything else of
the cycle (45_cycle_step.md R304), the range check of R307 before the units (log 8). -/
def runCycle (s : State) : Host.Outcome State Fault Refusal :=
  if !s.cfg.wf then .refused .badConfig
  else if s.input.rst then .next (s.resetCycle s.input)
  else if !s.legal then .fault .unreachableEncoding
  else runUnits s.input s.beginCycle

namespace State

/-- The state with one more cycle of inputs before the others. -/
def feed (s : State) (i : CycleIn) : State := { s with tape := i :: s.tape }

/-- Place a code of the opcode table where the next cycle selects its operation from (log 5): a command word and a host
access on the host ports; a FrameReader row in RSTATE and KCNT, with its byte on the receive port. No word of the
table gives one of the other formats. -/
def place (s : State) : Code → State
  | .cmd w => s.feed { CycleIn.quiet with hWe := true, hAddr := 1, hWdata := w }
  | .host we addr wdata => s.feed { CycleIn.quiet with hWe := we, hAddr := addr, hWdata := wdata }
  | .rx x =>
    { s with rx := { s.rx with rstate := x.rstate, kcnt := x.kcnt }, ctrl := { s.ctrl with rxEn := x.rxEn } }.feed
      { CycleIn.quiet with chanFail := x.chanFail, rxValid := x.rxValid, rxData := x.data }
  | .frame _ => s
  | .tx _ _ => s
  | .dsp _ => s

end State

end Sys2Proof.Machine
end

