-- ==== Sys2Proof/Machine/Step.lean ====
section
/-! DEFINITION. The step of FSX, one clock cycle (00_scope.md R14), and the placing of a word of the opcode table for
the next step to run. -/
namespace Sys2Proof.Machine

/-- One step: one clock cycle (00_scope.md R14; 45_cycle_step.md R300). -/
def step (s : State) : Host.Outcome State Fault Refusal := runCycle s

/-- `s` with the operation that a word of the opcode table stands for placed for the next cycle (log 5). -/
def State.withFetchWord (s : State) (nbits w : Nat) : State :=
  match tableCode nbits w with
  | some code => s.place code
  | none => s

end Sys2Proof.Machine
end

