-- ==== Sys2Proof/Machine/Stimulus.lean ====
section
/-! DEFINITION. Stimulus scripts (30_encoding.md R118, R119): directives and the inputs they drive, cycle by cycle. -/
namespace Sys2Proof.Machine

/-- The directives of a stimulus script that drive inputs (30_encoding.md R118). CHECK is `State.check`. -/
inductive Directive where
  | reset
  | rx (bytes : List Byte)
  | wr (addr : BitVec 5) (v : Half)
  | idle (n : Nat)
  | fail
  | txready (b : Bool)
  /-- `A ‖ B`: both drive their inputs in the same cycles, starting together. -/
  | both (a b : Directive)
  deriving DecidableEq, Repr

/-- The inputs of a cycle driven by two directives (30_encoding.md R118; log 16). -/
def CycleIn.join (a b : CycleIn) : CycleIn where
  rst := a.rst || b.rst
  rxValid := a.rxValid || b.rxValid
  rxData := if a.rxValid then a.rxData else b.rxData
  chanFail := a.chanFail || b.chanFail
  txReady := a.txReady
  hWe := a.hWe || b.hWe
  hAddr := if a.hWe then a.hAddr else b.hAddr
  hWdata := if a.hWe then a.hWdata else b.hWdata

/-- Two sequences of inputs from the same cycle on; it lasts as long as the longer. -/
def joinTapes : List CycleIn → List CycleIn → List CycleIn
  | [], bs => bs
  | a :: as, [] => a :: as
  | a :: as, b :: bs => CycleIn.join a b :: joinTapes as bs

/-- The inputs of a directive's cycles, with the current TXREADY setting (30_encoding.md R118). DESIGN CHOICE (log 17): a
TXREADY inside `A ‖ B` does not reach the cycles of that pair, which run with the setting before it. A cycle
whose directive names no `h_addr` reads address 0x00 (log 18). -/
def Directive.inputs (txReady : Bool) : Directive → List CycleIn
  | .reset => [{ CycleIn.quiet with txReady := txReady, rst := true }]
  | .rx bytes => bytes.map fun b => { CycleIn.quiet with txReady := txReady, rxValid := true, rxData := b }
  | .wr addr v => [{ CycleIn.quiet with txReady := txReady, hWe := true, hAddr := addr, hWdata := v }]
  | .idle n => List.replicate n { CycleIn.quiet with txReady := txReady }
  | .fail => [{ CycleIn.quiet with txReady := txReady, chanFail := true }]
  | .txready _ => []
  | .both a b => joinTapes (a.inputs txReady) (b.inputs txReady)

/-- The TXREADY setting after a directive (30_encoding.md R118). DESIGN CHOICE (log 17): of two TXREADY in one pair
`A ‖ B` the second wins. -/
def Directive.setting (txReady : Bool) : Directive → Bool
  | .txready b => b
  | .both a b => b.setting (a.setting txReady)
  | .reset | .rx _ | .wr _ _ | .idle _ | .fail => txReady

/-- The tape of a script (30_encoding.md R118); TXREADY is 1 at first. -/
def scriptTape (txReady : Bool) : List Directive → List CycleIn
  | [] => []
  | d :: ds => d.inputs txReady ++ scriptTape (d.setting txReady) ds

/-- CHECK <reg> = <v> between cycles (30_encoding.md R118). -/
def State.check (s : State) (addr : BitVec 5) (v : Half) : Bool := s.regRead addr == v

/-- SETF <feature>, on or off (30_encoding.md R119). -/
def Directive.setFeature (f : Feature) (on : Bool) : Directive :=
  .wr 1 ((if on then 0x1010 else 0x1000) + f.index.setWidth 16)

/-- CLR done,err,cnt, any subset (30_encoding.md R119). -/
def Directive.clear (done err cnt : Bool) : Directive :=
  .wr 1 (0x2000 + (if done then 1 else 0) + (if err then 2 else 0) + (if cnt then 4 else 0))

/-- NOP (30_encoding.md R119). -/
def Directive.noOperation : Directive := .wr 1 0x0000

/-- The frame that FRAME sends: length and checksum computed (30_encoding.md R119). -/
def framed (dst src cmd : Byte) (payload : List Byte) : Frame :=
  let len : Byte := BitVec.ofNat 8 payload.length
  let sum := cksum ([dst, src, cmd, len] ++ payload)
  { dst := dst, src := src, cmd := cmd, len := len, payload := payload, ckh := hiByte sum, ckl := loByte sum }

/-- FRAME <dst> <src> <cmd> [<payload>] (30_encoding.md R119). -/
def Directive.frame (c : Params) (dst src cmd : Byte) (payload : List Byte) : Directive :=
  .rx ((framed dst src cmd payload).bytes c)

/-- BADFRAME: as FRAME, with CKL XOR 0x01 (30_encoding.md R119). -/
def Directive.badFrame (c : Params) (dst src cmd : Byte) (payload : List Byte) : Directive :=
  let f := framed dst src cmd payload
  .rx ({ f with ckl := f.ckl ^^^ 1 }.bytes c)

end Sys2Proof.Machine
end

