-- ==== Sys2Proof/Safety.lean ====
section
/-! DEFINITION. What holds of the states that a run reaches: the terms that claims about runs use. -/
namespace Sys2Proof.Machine

namespace Reader

/-- The four header bytes of the frame in progress, in stream order (30_encoding.md R100). -/
def header (r : Reader) : List Byte := [r.fDst, r.fSrc, r.fCmd, r.fLen]

/-- PBUF[0..n-1]. -/
def payload (r : Reader) (n : Nat) : List Byte := (List.range n).map r.pbuf.read

end Reader

namespace State

/-- In PAY fewer than F_LEN payload bytes have been taken (40_frame_reader.md R146), and PBUF is canonical. -/
def ReaderRight (s : State) : Prop :=
  (s.rx.rstate = rPay → s.rx.pcnt.toNat < s.rx.fLen.toNat) ∧ s.rx.pbuf.wf = true

/-- SUM is the checksum of the header and payload bytes taken so far (41_frame_validator.md R170). -/
def SumRight (s : State) : Prop :=
  (s.rx.rstate = rHdr → s.rx.sum = cksum (s.rx.header.take s.rx.hcnt.toNat)) ∧
  (s.rx.rstate = rPay → s.rx.sum = cksum (s.rx.header ++ s.rx.payload s.rx.pcnt.toNat)) ∧
  (s.rx.rstate = rCk → s.rx.sum = cksum (s.rx.header ++ s.rx.payload s.rx.fLen.toNat))

/-- LINK_FAIL is 1 exactly in FAILED (40_frame_reader.md R141; 60_exceptions.md R327). -/
def LinkRight (s : State) : Prop := s.err.linkFail = true ↔ s.rx.rstate = rFailed

/-- A snapshot field is 0 while its valid bit is 0 (10_state.md R40). -/
def AbsentZero (s : State) : Prop :=
  let n := s.store.snap
  (n.vEquip = false → n.equip = 0) ∧ (n.vTime = false → n.hour = 0 ∧ n.minute = 0) ∧
  (n.vWtemp = false → n.wtemp = 0) ∧ (n.vAtemp = false → n.atemp = 0) ∧
  (n.vAddr = false → n.sSrc = 0 ∧ n.sDst = 0) ∧ (n.vPump = false → n.pwatt = 0 ∧ n.prpm = 0) ∧
  (n.vTs = false → n.ts = 0)

/-- Command state: DONE, RESULT, CAUSE and ABORTED are 0 while a command is in progress, which has made an attempt; a
cause or an abort belongs to a result of TIMEOUT, a result to a completed command; ELAPSED is at most
TIMEOUT_TICKS + 1; TXIDX is 0 in WAIT (43_command_dispatcher.md R232, R234, R242; 10_state.md R45). -/
def CommandRight (s : State) : Prop :=
  (s.busy = true →
    s.res.done = false ∧ s.res.result = false ∧ s.res.cause = false ∧ s.res.aborted = false ∧ 1 ≤ s.dsp.att.toNat) ∧
  (s.res.result = false → s.res.cause = false ∧ s.res.aborted = false) ∧
  (s.res.done = false → s.res.result = false) ∧
  s.dsp.elapsed ≤ s.cfg.timeoutTicks + 1 ∧
  (s.dsp.dstate = dWait → s.dsp.txidx = 0)

/-- What every state of a run meets. -/
def Inv (s : State) : Prop :=
  s.legal = true ∧ s.ReaderRight ∧ s.SumRight ∧ s.LinkRight ∧ s.AbsentZero ∧ s.CommandRight

end State

end Sys2Proof.Machine
end

