-- ==== Sys2Proof/Certificates/Slice0/Obligations.lean ====
section
/-! DEFINITION. The statements for the provers. Values are written in natural-number arithmetic where the rules give a
value by arithmetic. The fields `events`, `out`, `cfg`, `tape` and `cycle` that appear in them are the model's own
(log 1 to 4). -/

open Sys2Proof Sys2Proof.Machine

/-! ### Encodings -/

/-- Decoding the code of a well-formed operation gives it back, with every operand. -/
def Obligations.DecodeInvertsEncode : Prop :=
  ∀ (c : Params) (i : Instr), i.wf c = true → decode c (encode c i) = .ok i

/-- A few command words written out from the patterns of 30_encoding.md R113 to R116. -/
def Obligations.CommandWordsDecodeAsWritten : Prop :=
  decodeCmd 0x0000 = .nop ∧ decodeCmd 0x1015 = .setf true 5 ∧ decodeCmd 0x1000 = .setf false 0 ∧
  decodeCmd 0x2003 = .clr false true true ∧ decodeCmd 0x2004 = .clr true false false ∧
  decodeCmd 0x1009 = .illegalSetf 0 false 9 ∧ decodeCmd 0x1020 = .illegalSetf 1 false 0 ∧
  decodeCmd 0x0800 = .illegalNop 0x800 ∧ decodeCmd 0x2008 = .illegalClr 1 0 ∧ decodeCmd 0x3000 = .illegalOp3 0 ∧
  decodeCmd 0x4000 = .illegalOp4to7 0 ∧ decodeCmd 0x8000 = .illegalOp8toF 0

/-- 30_encoding.md R116 and 44_host_interface.md R278: the illegal words are exactly (a) to (d); such a word sets
ILLEGAL_OP and nothing else, whatever DSTATE is; no other word sets it. -/
def Obligations.IllegalWordsAreExactlyThoseOfR116 : Prop :=
  ∀ (w : Half) (s : State),
    let op := w.toNat / 4096
    let illegal := 3 ≤ op ∨ (op = 0 ∧ w.toNat % 4096 ≠ 0) ∨
      (op = 1 ∧ (w.toNat / 32 % 128 ≠ 0 ∨ 9 ≤ w.toNat % 16)) ∨ (op = 2 ∧ w.toNat / 8 % 512 ≠ 0)
    (illegal → exec (.regWriteCmd w) s =
      .next { s with err := { s.err with illegalOp := true }, events := s.events ++ [.illegalOp] }) ∧
    (¬ illegal → ∃ t, exec (.regWriteCmd w) s = .next t ∧ (t.err.illegalOp = true → s.err.illegalOp = true))

/-- 44_host_interface.md R273: a write to CMD takes exactly the branch of its OP, with the operands at their bits; and it
does what the table's row that the decoder reads does. -/
def Obligations.CommandWriteTakesTheBranchOfItsOp : Prop :=
  ∀ (w : Half) (s : State),
    let op := w.toNat / 4096
    let illegal := 3 ≤ op ∨ (op = 0 ∧ w.toNat % 4096 ≠ 0) ∨
      (op = 1 ∧ (w.toNat / 32 % 128 ≠ 0 ∨ 9 ≤ w.toNat % 16)) ∨ (op = 2 ∧ w.toNat / 8 % 512 ≠ 0)
    (illegal → exec (.regWriteCmd w) s =
      .next { s with err := { s.err with illegalOp := true }, events := s.events ++ [.illegalOp] }) ∧
    (¬ illegal → op = 0 → exec (.regWriteCmd w) s = exec .nop s) ∧
    (¬ illegal → op = 1 → exec (.regWriteCmd w) s =
      exec (.setf (decide (w.toNat / 16 % 2 = 1)) (BitVec.ofNat 4 (w.toNat % 16))) s) ∧
    (¬ illegal → op = 2 → exec (.regWriteCmd w) s =
      exec (.clr (decide (w.toNat / 4 % 2 = 1)) (decide (w.toNat / 2 % 2 = 1)) (decide (w.toNat % 2 = 1))) s) ∧
    exec (.regWriteCmd w) s = exec (decodeCmd w) s

/-- 41_frame_validator.md R175, with the frame of 30_encoding.md R109: the trailer is the checksum, and the bytes are
accepted when received unaltered; CKH is at most 3. -/
def Obligations.EveryCommandFrameIsAccepted : Prop :=
  ∀ (c : Params) (feat : BitVec 4) (st : Bool), feat.toNat < 9 →
    let fid := c.featureId.toList.getD feat.toNat 0
    let v : Byte := if st then 1 else 0
    let sum := (c.addrRemote.toNat + c.addrMain.toNat + c.cmdSet.toNat + 2 + fid.toNat + v.toNat) % 65536
    ∃ f, cmdFrameOf c feat st = some f ∧
      f.bytes c = [c.preamble.b0, c.preamble.b1, c.preamble.b2, c.preamble.b3, c.addrRemote, c.addrMain, c.cmdSet, 2,
        fid, v, BitVec.ofNat 8 (sum / 256), BitVec.ofNat 8 (sum % 256)] ∧
      f.ckh.toNat ≤ 3 ∧
      (decode c (.frame (f.bytes c)) = .ok (.frameSkip f) ∨ decode c (.frame (f.bytes c)) = .ok (.frameTelem f))

/-- 40_frame_reader.md R140: the FrameReader's operation is the first of the nine whose condition holds. -/
def Obligations.ReaderSelectionFollowsItsOrder : Prop :=
  ∀ (c : Params) (x : RxSel),
    let live := x.chanFail = false ∧ x.rstate ≠ 4
    let taking := live ∧ x.rxEn = true ∧ x.rxValid = true
    (x.chanFail = true → decode c (.rx x) = .ok .rxFail) ∧
    (x.chanFail = false ∧ x.rstate = 4 → decode c (.rx x) = .ok .rxDead) ∧
    (live ∧ x.rxEn = false → decode c (.rx x) = .ok .rxOff) ∧
    (live ∧ x.rxEn = true ∧ x.rxValid = false → decode c (.rx x) = .ok .rxNone) ∧
    (taking ∧ x.rstate = 0 → decode c (.rx x) = .ok (.rxHunt x.data)) ∧
    (taking ∧ x.rstate = 1 → decode c (.rx x) = .ok (.rxHdr x.data)) ∧
    (taking ∧ x.rstate = 2 → decode c (.rx x) = .ok (.rxPay x.data)) ∧
    (taking ∧ x.rstate = 3 ∧ x.kcnt = 0 → decode c (.rx x) = .ok (.rxCk0 x.data)) ∧
    (taking ∧ x.rstate = 3 ∧ x.kcnt = 1 → decode c (.rx x) = .ok (.rxCk1 x.data))

/-- 43_command_dispatcher.md R230: the dispatcher's operation in each state, with the priorities of R233 and R236. -/
def Obligations.DispatcherSelectionFollowsItsOrder : Prop :=
  ∀ (s : State) (i : CycleIn),
    let pick := decode s.cfg (.dsp (s.dspSel i))
    let tmo := 5 * s.cfg.fClkHz < s.dsp.elapsed
    let sees := s.store.fresh = true
    let agrees := s.store.snap.vEquip = true ∧ s.store.snap.equip.getLsbD s.dsp.cFeat.toNat = s.dsp.cSt
    (s.dsp.dstate = 0 → (∀ st feat, i.hWe = true → i.hAddr = 1 → decodeCmd i.hWdata ≠ .setf st feat) →
      pick = .ok .dspIdle) ∧
    (s.dsp.dstate = 0 → i.hWe = true → i.hAddr = 1 → ∀ st feat,
      decodeCmd i.hWdata = .setf st feat → pick = .ok (.dspStart st feat)) ∧
    (s.dsp.dstate = 1 → tmo → pick = .ok (.dspWallTimeout 1)) ∧
    (s.dsp.dstate = 1 → ¬ tmo → i.txReady = true → s.dsp.txidx = 11 → pick = .ok .dspTxEnd) ∧
    (s.dsp.dstate = 1 → ¬ tmo → (i.txReady = false ∨ s.dsp.txidx ≠ 11) → pick = .ok (.dspTx i.txReady)) ∧
    (s.dsp.dstate = 2 → sees → agrees → pick = .ok .dspSuccess) ∧
    (s.dsp.dstate = 2 → ¬ (sees ∧ agrees) → tmo → pick = .ok (.dspWallTimeout 2)) ∧
    (s.dsp.dstate = 2 → sees → ¬ agrees → ¬ tmo → s.dsp.att.toNat < 5 → pick = .ok .dspRetry) ∧
    (s.dsp.dstate = 2 → sees → ¬ agrees → ¬ tmo → 5 ≤ s.dsp.att.toNat → pick = .ok .dspExhaust) ∧
    (s.dsp.dstate = 2 → ¬ sees → ¬ tmo → pick = .ok .dspWait)

/-- 42_status_decoder.md R190 with 30_encoding.md R105: what the bytes of a frame with LEN payload bytes decode to. -/
def Obligations.FrameBytesDecodeToTheirClass : Prop :=
  ∀ (c : Params) (f : Frame), f.payload.length = f.len.toNat →
    let sum := ([f.dst.toNat, f.src.toNat, f.cmd.toNat, f.len.toNat] ++ f.payload.map BitVec.toNat).sum % 65536
    let telem := f.src = c.addrPump ∧ f.cmd = c.cmdTelem ∧ f.len.toNat + 10 = c.telemFrameLen
    (256 * f.ckh.toNat + f.ckl.toNat ≠ sum → decode c (.frame (f.bytes c)) = .ok (.frameBadck f)) ∧
    (256 * f.ckh.toNat + f.ckl.toNat = sum →
      (telem → decode c (.frame (f.bytes c)) = .ok (.frameTelem f)) ∧
      (¬ telem → 8 < f.len.toNat → decode c (.frame (f.bytes c)) = .ok (.frameStatus f)) ∧
      (¬ telem → f.len.toNat ≤ 8 → decode c (.frame (f.bytes c)) = .ok (.frameSkip f)))

/-! ### Checksum -/

/-- 41_frame_validator.md R170: adding byte by byte modulo 65536 gives the sum of all bytes modulo 65536. -/
def Obligations.IncrementalChecksumIsTheWholeSum : Prop :=
  ∀ (bs : List Byte), (bs.foldl addByte 0).toNat = (bs.map BitVec.toNat).sum % 65536 ∧ bs.foldl addByte 0 = cksum bs

/-- 41_frame_validator.md R172: the 16-bit comparison is the comparison of the two bytes of the reduced sum. -/
def Obligations.ByteWiseComparisonIsEquivalent : Prop :=
  ∀ (f : Frame), f.valid = true ↔
    (f.ckh.toNat = (f.summed.map BitVec.toNat).sum % 65536 / 256 ∧
     f.ckl.toNat = (f.summed.map BitVec.toNat).sum % 65536 % 256)

/-- From 41_frame_validator.md R176(e): a change in one byte of DST, SRC, CMD, the payload or the trailer is always
detected. -/
def Obligations.OneChangedByteIsDetected : Prop :=
  ∀ (f : Frame) (b : Byte), f.valid = true →
    (b ≠ f.dst → { f with dst := b }.valid = false) ∧ (b ≠ f.src → { f with src := b }.valid = false) ∧
    (b ≠ f.cmd → { f with cmd := b }.valid = false) ∧ (b ≠ f.ckh → { f with ckh := b }.valid = false) ∧
    (b ≠ f.ckl → { f with ckl := b }.valid = false) ∧
    (∀ (n : Nat) (x : Byte), f.payload[n]? = some x → b ≠ x → { f with payload := f.payload.set n b }.valid = false)

/-! ### Host register access -/

/-- CTRL, CMDSTAT, ERR, RXSTAT and SNAPV by their fields (10_state.md R50 to R53): what a read shows, that it changes
nothing else, that a write of a read-only register has no effect, and the value after reset. -/
def Obligations.StatusRegistersShowTheirFields : Prop :=
  ∀ (s : State) (c : Params) (tape : List CycleIn) (v : Half),
    let shows := fun (a : BitVec 5) (n : Nat) =>
      exec (.regRead a) s = .next { s with out := { s.out with hRdata := BitVec.ofNat 16 n } } ∧ n < 65536
    let readOnlyZero := fun (a : BitVec 5) =>
      exec (.regWriteOther a v) s = .next s ∧ (State.powerOn c tape).regRead a = 0
    let n := s.store.snap
    shows 0x02 ((if s.dsp.dstate = 0 then 0 else 1) + 2 * s.res.done.toNat + 4 * s.res.result.toNat +
      8 * s.res.cause.toNat + 16 * s.res.aborted.toNat + 32 * s.dsp.cSt.toNat + 256 * s.dsp.cFeat.toNat +
      4096 * s.dsp.att.toNat) ∧ readOnlyZero 0x02 ∧
    shows 0x03 (s.err.illegalOp.toNat + 2 * s.err.cmdOverrun.toNat + 4 * s.err.linkFail.toNat) ∧ readOnlyZero 0x03 ∧
    shows 0x04 (s.rx.rstate.toNat + 8 * s.store.fresh.toNat + 16 * s.dsp.dstate.toNat) ∧ readOnlyZero 0x04 ∧
    shows 0x05 (n.vEquip.toNat + 2 * n.vTime.toNat + 4 * n.vWtemp.toNat + 8 * n.vAtemp.toNat + 16 * n.vAddr.toNat +
      32 * n.vPump.toNat + 64 * n.vTs.toNat) ∧ readOnlyZero 0x05

/-- The snapshot registers by their fields (10_state.md R54 to R60). -/
def Obligations.SnapshotRegistersShowTheirFields : Prop :=
  ∀ (s : State) (c : Params) (tape : List CycleIn) (v : Half),
    let shows := fun (a : BitVec 5) (n : Nat) =>
      exec (.regRead a) s = .next { s with out := { s.out with hRdata := BitVec.ofNat 16 n } } ∧ n < 65536
    let readOnlyZero := fun (a : BitVec 5) =>
      exec (.regWriteOther a v) s = .next s ∧ (State.powerOn c tape).regRead a = 0
    let n := s.store.snap
    shows 0x06 n.equip.toNat ∧ readOnlyZero 0x06 ∧
    shows 0x07 (256 * n.hour.toNat + n.minute.toNat) ∧ readOnlyZero 0x07 ∧
    shows 0x08 (256 * n.atemp.toNat + n.wtemp.toNat) ∧ readOnlyZero 0x08 ∧
    shows 0x09 (256 * n.sSrc.toNat + n.sDst.toNat) ∧ readOnlyZero 0x09 ∧
    shows 0x0A n.pwatt.toNat ∧ readOnlyZero 0x0A ∧ shows 0x0B n.prpm.toNat ∧ readOnlyZero 0x0B ∧
    shows 0x0C (n.ts.toNat % 65536) ∧ readOnlyZero 0x0C ∧ shows 0x0D (n.ts.toNat / 65536) ∧ readOnlyZero 0x0D ∧
    shows 0x0E s.store.seq.toNat ∧ readOnlyZero 0x0E

/-- The diagnostic registers and NOW by their fields (10_state.md R61, R63, R64; CNT_OK and CNT_CKERR too). -/
def Obligations.DiagnosticRegistersShowTheirFields : Prop :=
  ∀ (s : State) (c : Params) (tape : List CycleIn) (v : Half),
    let shows := fun (a : BitVec 5) (n : Nat) =>
      exec (.regRead a) s = .next { s with out := { s.out with hRdata := BitVec.ofNat 16 n } } ∧ n < 65536
    let readOnlyZero := fun (a : BitVec 5) =>
      exec (.regWriteOther a v) s = .next s ∧ (State.powerOn c tape).regRead a = 0
    shows 0x0F s.diag.ckRx.toNat ∧ readOnlyZero 0x0F ∧ shows 0x10 s.diag.ckCalc.toNat ∧ readOnlyZero 0x10 ∧
    shows 0x11 s.diag.cntOk.toNat ∧ readOnlyZero 0x11 ∧ shows 0x12 s.diag.cntCkerr.toNat ∧ readOnlyZero 0x12 ∧
    shows 0x13 (s.now.toNat % 65536) ∧ readOnlyZero 0x13 ∧ shows 0x14 (s.now.toNat / 65536) ∧ readOnlyZero 0x14 ∧
    shows 0x15 (256 * s.diag.lfSrc.toNat + s.diag.lfDst.toNat) ∧ readOnlyZero 0x15 ∧
    shows 0x16 (256 * s.diag.lfCmd.toNat + s.diag.lfLen.toNat) ∧ readOnlyZero 0x16

/-- 44_host_interface.md R272 and the read of CTRL (10_state.md R48): the low three bits are stored, the others
ignored and read as zero; CTRL reads 0x0001 after reset. -/
def Obligations.CtrlStoresItsThreeBits : Prop :=
  ∀ (s : State) (v : Half) (c : Params) (tape : List CycleIn),
    exec (.regWriteCtrl v) s = .next { s with
      ctrl := { rxEn := decide (v.toNat % 2 = 1), ieDone := decide (v.toNat / 2 % 2 = 1),
                ieErr := decide (v.toNat / 4 % 2 = 1) } } ∧
    exec (.regRead 0x00) s = .next { s with
      out := { s.out with
        hRdata := BitVec.ofNat 16 (s.ctrl.rxEn.toNat + 2 * s.ctrl.ieDone.toNat + 4 * s.ctrl.ieErr.toNat) } } ∧
    (State.powerOn c tape).regRead 0x00 = 0x0001

/-- 44_host_interface.md R274 and 10_state.md R65: a write to any other address changes nothing; CMD and the reserved
addresses read 0x0000. -/
def Obligations.OtherWritesChangeNothing : Prop :=
  ∀ (s : State) (a : BitVec 5) (v : Half),
    (a ≠ 0 → a ≠ 1 → decodeHost true a v = .regWriteOther a v ∧ exec (.regWriteOther a v) s = .next s) ∧
    (a.toNat = 1 ∨ 0x17 ≤ a.toNat → exec (.regRead a) s = .next { s with out := { s.out with hRdata := 0 } })

/-! ### Host commands -/

/-- 44_host_interface.md R275: NOP leaves every register unchanged. -/
def Obligations.NopChangesNothing : Prop := ∀ (s : State), exec .nop s = .next s

/-- 44_host_interface.md R276 with 43_command_dispatcher.md R232: SETF starts a command in IDLE, and is refused with
CMD_OVERRUN otherwise, leaving the command in progress alone. The dispatcher's row START writes the same, in a cycle that
offers no byte. -/
def Obligations.SetfStartsACommandOrOverruns : Prop :=
  ∀ (s : State) (st : Bool) (feat : BitVec 4),
    (s.dsp.dstate = 0 → exec (.setf st feat) s = .next { s with
      dsp := { dstate := 1, cFeat := feat, cSt := st, att := 1, txidx := 0, elapsed := 0 }
      res := { done := false, result := false, cause := false, aborted := false } }) ∧
    (s.dsp.dstate ≠ 0 → exec (.setf st feat) s =
      .next { s with err := { s.err with cmdOverrun := true }, events := s.events ++ [.cmdOverrun] }) ∧
    exec (.dspStart st feat) s = .next { s with
      out := { s.out with txValid := false, txData := 0 }
      dsp := { dstate := 1, cFeat := feat, cSt := st, att := 1, txidx := 0, elapsed := 0 }
      res := { done := false, result := false, cause := false, aborted := false } }

/-- What CLR clears (44_host_interface.md R277): each part alone, never LINK_FAIL, CK_RX, CK_CALC, the snapshot, FRESH or
SEQ. -/
def Obligations.ClrClearsWhatItsBitsName : Prop :=
  ∀ (s : State) (cnt err done : Bool), ∃ t, exec (.clr cnt err done) s = .next t ∧
    t = { s with res := t.res, err := t.err, diag := t.diag } ∧
    t.res = (if done then { done := false, result := false, cause := false, aborted := false } else s.res) ∧
    t.err = { illegalOp := !err && s.err.illegalOp, cmdOverrun := !err && s.err.cmdOverrun,
              linkFail := s.err.linkFail } ∧
    t.diag = { s.diag with cntOk := if cnt then 0 else s.diag.cntOk, cntCkerr := if cnt then 0 else s.diag.cntCkerr }

/-- 44_host_interface.md R278: each of the six illegal rows sets ILLEGAL_OP and changes nothing else. -/
def Obligations.IllegalRowsOnlySetIllegalOp : Prop :=
  ∀ (s : State) (r12 : BitVec 12) (r7 : BitVec 7) (st : Bool) (feat : BitVec 4) (r9 : BitVec 9) (low : BitVec 3)
    (r14 : BitVec 14) (r15 : BitVec 15),
    let t := { s with err := { s.err with illegalOp := true }, events := s.events ++ [.illegalOp] }
    exec (.illegalNop r12) s = .next t ∧ exec (.illegalSetf r7 st feat) s = .next t ∧
    exec (.illegalClr r9 low) s = .next t ∧ exec (.illegalOp3 r12) s = .next t ∧
    exec (.illegalOp4to7 r14) s = .next t ∧ exec (.illegalOp8toF r15) s = .next t

/-! ### FrameReader -/

/-- 40_frame_reader.md R141: the channel's failure sets FAILED and LINK_FAIL, in the cycle of a last checksum byte too,
and nothing but reset leaves FAILED. -/
def Obligations.ChannelFailureIsPermanent : Prop :=
  (∀ (s : State), exec .rxFail s = .next { s with
    rx := { s.rx with rstate := 4 }, err := { s.err with linkFail := true }, events := s.events ++ [.linkFail] }) ∧
  (∀ (s : State), exec .rxDead s = .next s) ∧
  (∀ (s t : State), step s = .next t → s.input.rst = false →
    (s.input.chanFail = true → t.rx = { s.rx with rstate := 4 } ∧ t.err.linkFail = true ∧
      t.store.snap = s.store.snap ∧ t.store.seq = s.store.seq) ∧
    (s.input.chanFail = false → s.rx.rstate = 4 → t.rx = s.rx ∧ t.err.linkFail = s.err.linkFail ∧
      t.store.snap = s.store.snap ∧ t.store.seq = s.store.seq))

/-- 40_frame_reader.md R142 and R143: RX.OFF abandons the frame and clears the window; without a byte nothing changes. -/
def Obligations.ReceiverOffHuntsAndNoByteChangesNothing : Prop :=
  ∀ (s : State),
    exec .rxOff s = .next { s with rx := { s.rx with rstate := 0, wfill := 0, hcnt := 0, pcnt := 0, kcnt := 0 } } ∧
    exec .rxNone s = .next s

/-- From 40_frame_reader.md R144: the window shifts, and a match of four bytes since the last clear synchronizes. That a
byte without a match appends the event framingError is the model's choice (log 15, from 60_exceptions.md R320, R321): R144
says that nothing is recorded, and no register holds the event. -/
def Obligations.HuntSynchronizesOnTheFullWindow : Prop :=
  ∀ (s : State) (b : Byte),
    let w : Quad := ⟨s.rx.win.b1, s.rx.win.b2, s.rx.win.b3, b⟩
    let fill := min (s.rx.wfill.toNat + 1) 4
    (fill = 4 ∧ w = s.cfg.preamble → exec (.rxHunt b) s = .next { s with
      rx := { s.rx with win := w, wfill := BitVec.ofNat 3 fill, rstate := 1, hcnt := 0, sum := 0 } }) ∧
    (¬ (fill = 4 ∧ w = s.cfg.preamble) → exec (.rxHunt b) s = .next { s with
      rx := { s.rx with win := w, wfill := BitVec.ofNat 3 fill }, events := s.events ++ [.framingError] })

/-- 40_frame_reader.md R145: each header byte goes to its register and into SUM; after LEN the payload or, for LEN 0,
the checksum follows. -/
def Obligations.HeaderBytesAreStoredAndSummed : Prop :=
  ∀ (s : State) (b : Byte),
    let sum := BitVec.ofNat 16 ((s.rx.sum.toNat + b.toNat) % 65536)
    (s.rx.hcnt = 0 → exec (.rxHdr b) s = .next { s with rx := { s.rx with fDst := b, sum := sum, hcnt := 1 } }) ∧
    (s.rx.hcnt = 1 → exec (.rxHdr b) s = .next { s with rx := { s.rx with fSrc := b, sum := sum, hcnt := 2 } }) ∧
    (s.rx.hcnt = 2 → exec (.rxHdr b) s = .next { s with rx := { s.rx with fCmd := b, sum := sum, hcnt := 3 } }) ∧
    (s.rx.hcnt = 3 → exec (.rxHdr b) s = .next { s with
      rx := { s.rx with fLen := b, sum := sum, pcnt := 0, kcnt := 0, rstate := if b = 0 then 3 else 2 } })

/-- 40_frame_reader.md R146: a payload byte goes to PBUF[PCNT] and into SUM, and the last one leads to the checksum; every
other entry of PBUF is as before. -/
def Obligations.PayloadByteIsStoredAndSummed : Prop :=
  ∀ (s : State) (b : Byte), s.rx.pbuf.wf = true → s.rx.pcnt.toNat < 255 →
    let last := s.rx.pcnt.toNat + 1 = s.rx.fLen.toNat
    ∃ t, exec (.rxPay b) s = .next t ∧
      t = { s with rx := { s.rx with
        pbuf := t.rx.pbuf
        sum := BitVec.ofNat 16 ((s.rx.sum.toNat + b.toNat) % 65536)
        pcnt := BitVec.ofNat 8 (s.rx.pcnt.toNat + 1)
        rstate := if last then 3 else s.rx.rstate
        kcnt := if last then 0 else s.rx.kcnt } } ∧
      t.rx.pbuf.wf = true ∧
      ∀ i, t.rx.pbuf.read i = if i = s.rx.pcnt.toNat then b else s.rx.pbuf.read i

/-- The model's choice of log 10: with PCNT = 255 there is no entry of PBUF to write, and RX.PAY stops. -/
def Obligations.PayloadByteBeyondTheBufferStops : Prop :=
  ∀ (s : State) (b : Byte), s.rx.pcnt = 255 → exec (.rxPay b) s = .fault .noPayloadSlot

/-- 40_frame_reader.md R147: the high checksum byte is kept, and SUM is not changed. -/
def Obligations.ChecksumHighByteIsKept : Prop :=
  ∀ (s : State) (b : Byte), exec (.rxCk0 b) s = .next { s with rx := { s.rx with ckh := b, kcnt := 1 } }

/-- 40_frame_reader.md R148 with 41_frame_validator.md R171 and 42_status_decoder.md R190: the last byte runs the
operation of the frame's class, or its rejection, and the FrameReader hunts again. -/
def Obligations.LastByteCompletesTheFrame : Prop :=
  ∀ (s : State) (b : Byte), s.cfg.wf = true →
    let f : Frame := { dst := s.rx.fDst, src := s.rx.fSrc, cmd := s.rx.fCmd, len := s.rx.fLen,
                       payload := (List.range s.rx.fLen.toNat).map s.rx.pbuf.read, ckh := s.rx.ckh, ckl := b }
    let op : Instr :=
      if 256 * s.rx.ckh.toNat + b.toNat ≠ s.rx.sum.toNat then .frameBadck f
      else if s.rx.fSrc = s.cfg.addrPump ∧ s.rx.fCmd = s.cfg.cmdTelem ∧ s.rx.fLen.toNat + 10 = s.cfg.telemFrameLen then
        .frameTelem f
      else if 8 < s.rx.fLen.toNat then .frameStatus f
      else .frameSkip f
    ∃ e, exec op s = .next e ∧ exec (.rxCk1 b) s =
      .next { e with rx := { e.rx with rstate := 0, wfill := 0, hcnt := 0, pcnt := 0, kcnt := 0 } }

/-! ### StatusDecoder and FrameValidator -/

/-- 42_status_decoder.md R191, with the acceptance of 41_frame_validator.md R173: a TELEM frame updates the pump fields,
FRESH and SEQ, and nothing else of the snapshot. -/
def Obligations.TelemetryFrameUpdatesThePump : Prop :=
  ∀ (s : State) (f : Frame), s.cfg.wf = true → (Instr.frameTelem f).wf s.cfg = true →
    exec (.frameTelem f) s = .next { s with
      diag := { s.diag with
        cntOk := BitVec.ofNat 16 (min (s.diag.cntOk.toNat + 1) 65535)
        lfDst := f.dst, lfSrc := f.src, lfCmd := f.cmd, lfLen := f.len }
      store :=
        { snap := { s.store.snap with
            pwatt := BitVec.ofNat 16 (256 * (f.pay s.cfg.offPwatt).toNat + (f.pay (s.cfg.offPwatt + 1)).toNat)
            prpm := BitVec.ofNat 16 (256 * (f.pay s.cfg.offPrpm).toNat + (f.pay (s.cfg.offPrpm + 1)).toNat)
            vPump := true }
          fresh := true
          seq := BitVec.ofNat 16 ((s.store.seq.toNat + 1) % 65536) } }

/-- 42_status_decoder.md R192, with the acceptance of 41_frame_validator.md R173 and the bits of 30_encoding.md R111: what a
STATUS frame writes; a temperature beyond the payload keeps its value and valid bit. -/
def Obligations.StatusFrameUpdatesTheSnapshot : Prop :=
  ∀ (s : State) (f : Frame), s.cfg.wf = true → (Instr.frameStatus f).wf s.cfg = true →
    let c := s.cfg
    let n := s.store.snap
    exec (.frameStatus f) s = .next { s with
      diag := { s.diag with
        cntOk := BitVec.ofNat 16 (min (s.diag.cntOk.toNat + 1) 65535)
        lfDst := f.dst, lfSrc := f.src, lfCmd := f.cmd, lfLen := f.len }
      store :=
        { snap := { n with
            equip := BitVec.ofNat 9 (256 * ((f.pay c.offEq2).toNat % 2) + (f.pay c.offEq1).toNat), vEquip := true
            hour := f.pay c.offHour, minute := f.pay c.offMin, vTime := true
            sSrc := f.src, sDst := f.dst, vAddr := true
            ts := s.now, vTs := true
            wtemp := if c.offWtemp < f.len.toNat then f.pay c.offWtemp else n.wtemp
            vWtemp := if c.offWtemp < f.len.toNat then true else n.vWtemp
            atemp := if c.offAtemp < f.len.toNat then f.pay c.offAtemp else n.atemp
            vAtemp := if c.offAtemp < f.len.toNat then true else n.vAtemp }
          fresh := true
          seq := BitVec.ofNat 16 ((s.store.seq.toNat + 1) % 65536) } }

/-- 42_status_decoder.md R193: a SKIP frame is accepted and changes nothing of the store. -/
def Obligations.SkippedFrameLeavesTheStore : Prop :=
  ∀ (s : State) (f : Frame), exec (.frameSkip f) s = .next { s with
    diag := { s.diag with
      cntOk := BitVec.ofNat 16 (min (s.diag.cntOk.toNat + 1) 65535)
      lfDst := f.dst, lfSrc := f.src, lfCmd := f.cmd, lfLen := f.len }
    events := s.events ++ [.decodeSkip] }

/-- 41_frame_validator.md R174: a rejected frame leaves both checksums and a count, and nothing else. -/
def Obligations.RejectedFrameIsOnlyLogged : Prop :=
  ∀ (s : State) (f : Frame),
    let ckr := BitVec.ofNat 16 (256 * f.ckh.toNat + f.ckl.toNat)
    exec (.frameBadck f) s = .next { s with
      diag := { s.diag with
        ckRx := ckr, ckCalc := s.rx.sum, cntCkerr := BitVec.ofNat 16 (min (s.diag.cntCkerr.toNat + 1) 65535) }
      events := s.events ++ [.checksumMismatch ckr s.rx.sum] }

/-! ### CommandDispatcher -/

/-- 43_command_dispatcher.md R231: byte TXIDX of the command frame of 30_encoding.md R109 is offered. -/
def Obligations.CommandFrameByteIsOffered : Prop :=
  ∀ (s : State) (feat : BitVec 4) (st : Bool), feat.toNat < 9 → s.dsp.txidx.toNat ≤ 11 →
    let c := s.cfg
    let fid := c.featureId.toList.getD feat.toNat 0
    let v : Byte := if st then 1 else 0
    let sum := (c.addrRemote.toNat + c.addrMain.toNat + c.cmdSet.toNat + 2 + fid.toNat + v.toNat) % 65536
    let bytes := [c.preamble.b0, c.preamble.b1, c.preamble.b2, c.preamble.b3, c.addrRemote, c.addrMain, c.cmdSet, 2,
      fid, v, BitVec.ofNat 8 (sum / 256), BitVec.ofNat 8 (sum % 256)]
    exec (.cmdFrame feat st) s =
      .next { s with out := { s.out with txValid := true, txData := bytes.getD s.dsp.txidx.toNat 0 } }

/-- 43_command_dispatcher.md R243 and the staying cycle of R236: no byte is offered; in IDLE no dispatcher state changes,
in WAIT only ELAPSED does. -/
def Obligations.IdleAndWaitingCyclesOfferNothing : Prop :=
  ∀ (s : State),
    exec .dspIdle s = .next { s with out := { s.out with txValid := false, txData := 0 } } ∧
    exec .dspWait s = .next { s with
      out := { s.out with txValid := false, txData := 0 }
      dsp := { s.dsp with elapsed := min (s.dsp.elapsed + 1) (5 * s.cfg.fClkHz + 1) } }

/-- The transmitting cycle of 43_command_dispatcher.md R233 before the timeout: the byte of CMDFRAME is offered, TXIDX
advances only when it is taken, and the last byte ends the frame. -/
def Obligations.TransmittingCycleOffersTheNextByte : Prop :=
  ∀ (s : State) (ready : Bool), s.dsp.cFeat.toNat < 9 → s.dsp.txidx.toNat ≤ 11 →
    ∃ o, exec (.cmdFrame s.dsp.cFeat s.dsp.cSt) s = .next o ∧
      (ready = true ∧ s.dsp.txidx = 11 → exec (.dspTx ready) s = exec .dspTxEnd s) ∧
      (¬ (ready = true ∧ s.dsp.txidx = 11) → exec (.dspTx ready) s = .next { o with
        dsp := { s.dsp with
          txidx := BitVec.ofNat 4 (s.dsp.txidx.toNat + ready.toNat)
          elapsed := min (s.dsp.elapsed + 1) (5 * s.cfg.fClkHz + 1) } })

/-- 43_command_dispatcher.md R234: when the last byte is transmitted the dispatcher waits and FRESH is cleared. -/
def Obligations.EndOfFrameInvalidatesAndWaits : Prop :=
  ∀ (s : State), s.dsp.cFeat.toNat < 9 → s.dsp.txidx.toNat ≤ 11 →
    ∃ o, exec (.cmdFrame s.dsp.cFeat s.dsp.cSt) s = .next o ∧
      exec .dspTxEnd s = .next { o with
        dsp := { s.dsp with
          txidx := 0, dstate := 2, elapsed := min (s.dsp.elapsed + 1) (5 * s.cfg.fClkHz + 1) }
        store := { s.store with fresh := false } }

/-- 43_command_dispatcher.md R241: the timeout ends the command with RESULT = 1 and CAUSE = 0; ABORTED is set from TX and
stays as it was from WAIT; no byte is offered. -/
def Obligations.WallTimeoutEndsTheCommand : Prop :=
  ∀ (s : State),
    let base := fun (aborted : Bool) => { s with
      out := { s.out with txValid := false, txData := 0 }
      dsp := { s.dsp with dstate := 0, elapsed := min (s.dsp.elapsed + 1) (5 * s.cfg.fClkHz + 1) }
      res := { done := true, result := true, cause := false, aborted := aborted }
      events := s.events ++ [.timeoutError false aborted] }
    exec (.dspWallTimeout 1) s = .next (base true) ∧ exec (.dspWallTimeout 2) s = .next (base s.res.aborted)

/-- 43_command_dispatcher.md R238, R239 and R240: success, retry and exhaustion. -/
def Obligations.ConfirmationRetryAndExhaustion : Prop :=
  ∀ (s : State),
    let elapsed := min (s.dsp.elapsed + 1) (5 * s.cfg.fClkHz + 1)
    let out := { s.out with txValid := false, txData := 0 }
    exec .dspSuccess s = .next { s with
      out := out, dsp := { s.dsp with dstate := 0, elapsed := elapsed }
      res := { s.res with done := true, result := false, cause := false } } ∧
    exec .dspRetry s = .next { s with
      out := out
      dsp := { s.dsp with att := BitVec.ofNat 4 (s.dsp.att.toNat + 1), txidx := 0, dstate := 1, elapsed := elapsed } } ∧
    exec .dspExhaust s = .next { s with
      out := out, dsp := { s.dsp with dstate := 0, elapsed := elapsed }
      res := { s.res with done := true, result := true, cause := true }
      events := s.events ++ [.timeoutError true s.res.aborted] }

/-! ### The cycle -/

/-- A step runs the decoded operations (from 45_cycle_step.md R300, R303): the read, the host access, the dispatcher's and
the FrameReader's operation, and each element of the next state comes from the unit that writes it. Two things in it are
the model's choice. By log 7 the merge of R303 is built by handing on: the dispatcher's operation runs on the completion
flags the host leaves, the FrameReader's on the diagnostics the host leaves and on the FRESH the dispatcher leaves, where
R300 lets every operation read the start of the cycle and R303 merges afterwards. By log 4 the events of the cycle are
listed host, FrameReader, dispatcher. -/
def Obligations.StepRunsTheDecodedOperations : Prop :=
  ∀ (s : State) (ih id ir : Instr) (q h d r : State),
    s.cfg.wf = true → s.legal = true → s.input.rst = false →
    let i := s.input
    let b := { s with tape := s.tape.tail, cycle := s.cycle + 1, events := [] }
    decode s.cfg (.host i.hWe i.hAddr i.hWdata) = .ok ih →
    decode s.cfg (.dsp (b.dspSel i)) = .ok id →
    decode s.cfg (.rx (b.rxSel i)) = .ok ir →
    exec (.regRead i.hAddr) b = .next q →
    exec ih b = .next h →
    exec id { b with res := h.res } = .next d →
    exec ir { b with diag := h.diag, store := { b.store with fresh := d.store.fresh } } = .next r →
    step s = .next { b with
      out := { txValid := d.out.txValid, txData := d.out.txData, hRdata := q.out.hRdata, irq := s.irq,
               linkFail := s.err.linkFail }
      events := h.events ++ r.events ++ d.events
      ctrl := h.ctrl, rx := r.rx, store := r.store, diag := r.diag, now := s.now + 1, dsp := d.dsp, res := d.res
      err := { illegalOp := h.err.illegalOp, cmdOverrun := h.err.cmdOverrun, linkFail := r.err.linkFail } }

/-- From 70_reset_and_hazards.md R350 and R351, 45_cycle_step.md R304: a reset cycle, from every state and whatever the
other inputs are, gives every register its reset value, keeps the configuration, offers no byte, and shows the old state
on the other outputs. That this holds in the states of 45_cycle_step.md R307 too, where R307 calls a step a fault, is the
model's choice (log 8). -/
def Obligations.ResetCycleResetsEveryRegister : Prop :=
  ∀ (s : State), s.cfg.wf = true → s.input.rst = true →
    step s = .next { State.powerOn s.cfg s.tape.tail with
      cycle := s.cycle + 1
      out := { txValid := false, txData := 0, hRdata := s.regRead s.input.hAddr, irq := s.irq,
               linkFail := s.err.linkFail } }

/-- 10_state.md R70: the reset values, for every configuration, and that `State.reset` has them. -/
def Obligations.ResetValuesAreThoseOfR70 : Prop :=
  ∀ (c : Params) (tape : List CycleIn),
    let s := State.powerOn c tape
    s.ctrl = { rxEn := true, ieDone := false, ieErr := false } ∧
    s.rx = { rstate := 0, win := ⟨0, 0, 0, 0⟩, wfill := 0, fDst := 0, fSrc := 0, fCmd := 0, fLen := 0, hcnt := 0,
             pcnt := 0, kcnt := 0, ckh := 0, sum := 0, pbuf := s.rx.pbuf } ∧
    (∀ i, s.rx.pbuf.read i = 0) ∧
    s.store = { snap :=
      { equip := 0, hour := 0, minute := 0, wtemp := 0, atemp := 0, sSrc := 0, sDst := 0, pwatt := 0, prpm := 0,
        ts := 0, vEquip := false, vTime := false, vWtemp := false, vAtemp := false, vAddr := false, vPump := false,
        vTs := false }, fresh := false, seq := 0 } ∧
    s.diag = { ckRx := 0, ckCalc := 0, cntOk := 0, cntCkerr := 0, lfDst := 0, lfSrc := 0, lfCmd := 0, lfLen := 0 } ∧
    s.now = 0 ∧
    s.dsp = { dstate := 0, cFeat := 0, cSt := false, att := 0, txidx := 0, elapsed := 0 } ∧
    s.res = { done := false, result := false, cause := false, aborted := false } ∧
    s.err = { illegalOp := false, cmdOverrun := false, linkFail := false } ∧
    (∀ a, s.regRead a = if a = 0 then 1 else 0) ∧
    State.reset = State.powerOn State.reset.cfg State.reset.tape

/-- 00_scope.md R8: the well-formed configurations are those of (a) to (d), and the model refuses exactly the others. -/
def Obligations.OnlyWellFormedConfigurationsRun : Prop :=
  ∀ (s : State),
    let c := s.cfg
    let ok := c.offEq1 ≤ 8 ∧ c.offEq2 ≤ 8 ∧ c.offHour ≤ 8 ∧ c.offMin ≤ 8 ∧ c.offWtemp ≤ 254 ∧ c.offAtemp ≤ 254 ∧
      10 ≤ c.telemFrameLen ∧ c.telemFrameLen ≤ 265 ∧ c.offPwatt + 1 < c.telemFrameLen - 10 ∧
      c.offPrpm + 1 < c.telemFrameLen - 10 ∧ 1 ≤ c.fClkHz
    (¬ ok → step s = .refused .badConfig) ∧ (ok → ∀ r, step s ≠ .refused r)

/-- From 45_cycle_step.md R307: a step without reset from an encoding or a count that no rule produces is a fault, and no
step produces one. That a reset cycle comes before the fault is the model's choice (log 8). -/
def Obligations.UnreachableEncodingsFaultAndAreNeverProduced : Prop :=
  let stray := fun (s : State) =>
    5 ≤ s.rx.rstate.toNat ∨ s.dsp.dstate.toNat = 3 ∨ 11 < s.dsp.txidx.toNat ∨ 5 < s.dsp.att.toNat ∨
      4 < s.rx.wfill.toNat
  (∀ (s : State), s.cfg.wf = true → s.input.rst = false → stray s → step s = .fault .unreachableEncoding) ∧
  (∀ (s t : State), step s = .next t → ¬ stray t)

/-- 45_cycle_step.md R302: NOW counts every non-reset cycle and wraps. -/
def Obligations.NowCountsEveryCycle : Prop :=
  ∀ (s t : State), step s = .next t →
    (s.input.rst = false → t.now.toNat = (s.now.toNat + 1) % 2 ^ 32) ∧ (s.input.rst = true → t.now.toNat = 0)

/-- 42_status_decoder.md R202: of a store update and an invalidation in one cycle the update wins; FRESH is set by every
update, cleared by an invalidation alone, and otherwise kept. SEQ changes exactly at an update. -/
def Obligations.UpdateBeatsInvalidation : Prop :=
  ∀ (s t : State), step s = .next t → s.input.rst = false →
    let updates := t.store.seq ≠ s.store.seq
    let invalidates := s.dsp.dstate = 1 ∧ s.dsp.elapsed ≤ 5 * s.cfg.fClkHz ∧ s.input.txReady = true ∧ s.dsp.txidx = 11
    (updates → t.store.fresh = true) ∧ (¬ updates → invalidates → t.store.fresh = false) ∧
    (¬ updates → ¬ invalidates → t.store.fresh = s.store.fresh)

/-- 20_memory.md R90 and 42_status_decoder.md R199: the snapshot changes only in a cycle that sets FRESH and increments
SEQ, at the same edge. -/
def Obligations.SnapshotChangesOnlyWithSeqAndFresh : Prop :=
  ∀ (s t : State), step s = .next t → s.input.rst = false →
    (t.store.seq = s.store.seq ∧ t.store.snap = s.store.snap) ∨
    (t.store.seq.toNat = (s.store.seq.toNat + 1) % 65536 ∧ t.store.fresh = true)

/-- 42_status_decoder.md R194 (a) to (d). -/
def Obligations.OnlyAcceptedFramesChangeTheStore : Prop :=
  ∀ (s t : State), step s = .next t → s.input.rst = false →
    let n := s.store.snap
    let m := t.store.snap
    let accepts := s.input.chanFail = false ∧ s.ctrl.rxEn = true ∧ s.input.rxValid = true ∧ s.rx.rstate = 3 ∧
      s.rx.kcnt = 1 ∧ 256 * s.rx.ckh.toNat + s.input.rxData.toNat = s.rx.sum.toNat
    (s.rx.fLen.toNat ≤ 8 → m = { n with pwatt := m.pwatt, prpm := m.prpm, vPump := m.vPump }) ∧
    (s.rx.fLen.toNat + 10 ≠ s.cfg.telemFrameLen → m.pwatt = n.pwatt ∧ m.prpm = n.prpm ∧ m.vPump = n.vPump) ∧
    (n.vEquip = true → m.vEquip = true) ∧
    (¬ accepts → t.store.snap = s.store.snap ∧ t.store.seq = s.store.seq)

/-- From 45_cycle_step.md R303: in the cycle of a CLR, a command that ends still sets DONE, and a count of the same
cycle starts from 0. -/
def Obligations.EventsOfACycleSurviveItsClear : Prop :=
  ∀ (s t : State) (cnt err done : Bool), step s = .next t → s.input.rst = false →
    s.input.hWe = true → s.input.hAddr = 1 →
    s.input.hWdata = BitVec.ofNat 16 (0x2000 + done.toNat + 2 * err.toNat + 4 * cnt.toNat) →
    let ends := s.dsp.dstate ≠ 0 ∧ t.dsp.dstate = 0
    let completes := s.input.chanFail = false ∧ s.ctrl.rxEn = true ∧ s.input.rxValid = true ∧ s.rx.rstate = 3 ∧
      s.rx.kcnt = 1
    let agrees := 256 * s.rx.ckh.toNat + s.input.rxData.toNat = s.rx.sum.toNat
    let baseOk := if cnt then 0 else s.diag.cntOk.toNat
    let baseErr := if cnt then 0 else s.diag.cntCkerr.toNat
    (ends → t.res.done = true) ∧
    (¬ ends → t.res =
      if done then { done := false, result := false, cause := false, aborted := false } else s.res) ∧
    (completes ∧ agrees → t.diag.cntOk.toNat = min (baseOk + 1) 65535 ∧ t.diag.cntCkerr.toNat = baseErr) ∧
    (completes ∧ ¬ agrees → t.diag.cntCkerr.toNat = min (baseErr + 1) 65535 ∧ t.diag.cntOk.toNat = baseOk) ∧
    (¬ completes → t.diag.cntOk.toNat = baseOk ∧ t.diag.cntCkerr.toNat = baseErr)

/-- 45_cycle_step.md R301 with 44_host_interface.md R279 and R280: the outputs of a cycle. -/
def Obligations.OutputsShowTheStateOfTheCycle : Prop :=
  ∀ (s t : State), step s = .next t →
    let sends := s.input.rst = false ∧ s.dsp.dstate = 1 ∧ s.dsp.elapsed ≤ 5 * s.cfg.fClkHz
    t.out.irq = ((s.ctrl.ieDone && s.res.done) ||
      (s.ctrl.ieErr && (s.err.illegalOp || s.err.cmdOverrun || s.err.linkFail))) ∧
    t.out.linkFail = s.err.linkFail ∧ t.out.hRdata = s.regRead s.input.hAddr ∧
    (sends → t.out.txValid = true ∧ cmdByte s.cfg s.dsp.cFeat s.dsp.cSt s.dsp.txidx.toNat = some t.out.txData) ∧
    (¬ sends → t.out.txValid = false ∧ t.out.txData = 0)

/-- 40_frame_reader.md R151: what is assembled of a frame in progress shows in no host register and on no output, and does
not reach the dispatcher; only RSTATE shows. Two states that differ in FrameReader state alone, with one RSTATE, read the
same at every address, and their steps under the same inputs have the same five outputs and the same dispatcher. -/
def Obligations.PartialFrameIsNotExposed : Prop :=
  ∀ (s : State) (r : Reader), r.rstate = s.rx.rstate →
    (∀ a, exec (.regRead a) { s with rx := r } =
      .next { { s with rx := r } with out := { s.out with hRdata := s.regRead a } }) ∧
    ({ s with rx := r } : State).irq = s.irq ∧ (∀ i, ({ s with rx := r } : State).dspSel i = s.dspSel i) ∧
    (∀ t u, step s = .next t → step { s with rx := r } = .next u →
      t.out = u.out ∧ t.dsp = u.dsp ∧ t.res = u.res ∧ t.ctrl = u.ctrl)

/-- 43_command_dispatcher.md R245 with 45_cycle_step.md R305: what arrives in a cycle does not reach the dispatcher, the
host registers it writes, or the outputs in that cycle. -/
def Obligations.DispatcherIgnoresTheReceiverInACycle : Prop :=
  ∀ (s t u : State) (i j : CycleIn) (ts : List CycleIn),
    i.rst = j.rst → i.txReady = j.txReady → i.hWe = j.hWe → i.hAddr = j.hAddr → i.hWdata = j.hWdata →
    step { s with tape := i :: ts } = .next t → step { s with tape := j :: ts } = .next u →
    t.dsp = u.dsp ∧ t.res = u.res ∧ t.ctrl = u.ctrl ∧ t.now = u.now ∧ t.out = u.out ∧
    t.err.illegalOp = u.err.illegalOp ∧ t.err.cmdOverrun = u.err.cmdOverrun

/-- 20_memory.md R95 and 70_reset_and_hazards.md R355: the FrameReader's cycle depends neither on the dispatcher nor on
what the host writes in that cycle, RX_EN included. -/
def Obligations.ReceiverIgnoresDispatcherAndHostInACycle : Prop :=
  ∀ (s t u : State) (i j : CycleIn) (ts : List CycleIn) (dsp : Dispatcher) (res : Completion),
    i.rst = j.rst → i.rxValid = j.rxValid → i.rxData = j.rxData → i.chanFail = j.chanFail →
    step { s with tape := i :: ts } = .next t →
    step { s with tape := j :: ts, dsp := dsp, res := res } = .next u →
    t.rx = u.rx ∧ t.store.snap = u.store.snap ∧ t.store.seq = u.store.seq ∧ t.err.linkFail = u.err.linkFail ∧
    t.diag.ckRx = u.diag.ckRx ∧ t.diag.ckCalc = u.diag.ckCalc ∧ t.diag.lfDst = u.diag.lfDst ∧
    t.diag.lfSrc = u.diag.lfSrc ∧ t.diag.lfCmd = u.diag.lfCmd ∧ t.diag.lfLen = u.diag.lfLen

/-- The configuration never changes and each cycle takes one entry of the tape (10_state.md R33; log 1, log 2). -/
def Obligations.ConfigurationIsFixed : Prop :=
  ∀ (s t : State), step s = .next t → t.cfg = s.cfg ∧ t.tape = s.tape.tail ∧ t.cycle = s.cycle + 1

/-! ### Runs -/

/-- The invariant holds after reset, for every configuration. -/
def Obligations.InvariantHoldsAfterReset : Prop := ∀ (c : Params) (tape : List CycleIn), (State.powerOn c tape).Inv

/-- Every step keeps the invariant: legal encodings, SUM the checksum of the bytes taken so far (41_frame_validator.md
R170), LINK_FAIL exactly in FAILED, absent fields 0, and the command state of `State.CommandRight`. -/
def Obligations.StepKeepsTheInvariant : Prop := ∀ (s t : State), s.Inv → step s = .next t → t.Inv

/-- FSX never halts (45_cycle_step.md R308): from a state of the invariant with a well-formed configuration every step,
whatever the inputs are, has a next state. -/
def Obligations.NoReachableStateStops : Prop :=
  ∀ (s : State), s.cfg.wf = true → s.Inv → ∃ t, step s = .next t

/-- From 43_command_dispatcher.md R246(c): a command in progress ends, with DONE, within TIMEOUT_TICKS + 2 - ELAPSED cycles
without reset, whatever the other inputs are. -/
def Obligations.EveryCommandEndsInTime : Prop :=
  ∀ (s : State), s.cfg.wf = true → s.Inv → s.dsp.dstate ≠ 0 →
    5 * s.cfg.fClkHz + 2 ≤ s.tape.length + s.dsp.elapsed → (∀ i ∈ s.tape, i.rst = false) →
    ∃ k t, k + s.dsp.elapsed ≤ 5 * s.cfg.fClkHz + 2 ∧ Host.Core.run Sys2Proof.core k s = .next t ∧
      t.dsp.dstate = 0 ∧ t.res.done = true ∧ t.dsp.att.toNat ≤ 5

/-- Byte-serial reception is the frame's operation (40_frame_reader.md R148, R152): from HUNT with a cleared window, the
bytes of a frame, one a cycle, with no other stimulus, do to diagnostics, snapshot and SEQ what the operation that the
frame decodes to does at the time of its last byte, and the FrameReader hunts again with a cleared window. -/
def Obligations.ReceivingAFrameRunsItsOperation : Prop :=
  ∀ (s e : State) (f : Frame) (op : Instr) (rest : List CycleIn),
    s.cfg.wf = true → s.Inv → s.rx.rstate = 0 → s.rx.wfill = 0 → s.ctrl.rxEn = true →
    f.payload.length = f.len.toNat →
    s.tape = (f.bytes s.cfg).map (fun b => { CycleIn.quiet with rxValid := true, rxData := b }) ++ rest →
    decode s.cfg (.frame (f.bytes s.cfg)) = .ok op →
    exec op { s with now := s.now + BitVec.ofNat 32 (f.len.toNat + 9),
                     rx := { s.rx with sum := cksum f.summed } } = .next e →
    ∃ t, Host.Core.run Sys2Proof.core (f.len.toNat + 10) s = .next t ∧
      t.diag = e.diag ∧ t.store.snap = e.store.snap ∧ t.store.seq = e.store.seq ∧ t.tape = rest ∧
      t.rx.rstate = 0 ∧ t.rx.wfill = 0 ∧ t.err = s.err

/-- 43_command_dispatcher.md R231 over the cycles of an attempt (70_reset_and_hazards.md R364): with `tx_ready` 1 and time
left, the k-th cycle of TX offers byte k of the command frame, and after twelve the dispatcher waits. -/
def Obligations.AnAttemptSendsTheTwelveBytes : Prop :=
  ∀ (s : State) (k : Nat), s.cfg.wf = true → s.Inv → s.dsp.dstate = 1 → s.dsp.txidx = 0 →
    s.dsp.elapsed + 11 ≤ 5 * s.cfg.fClkHz → 12 ≤ s.tape.length →
    (∀ i ∈ s.tape, i.rst = false ∧ i.txReady = true) → k < 12 →
    ∃ t, Host.Core.run Sys2Proof.core (k + 1) s = .next t ∧ t.out.txValid = true ∧
      cmdByte s.cfg s.dsp.cFeat s.dsp.cSt k = some t.out.txData ∧
      (k < 11 → t.dsp.dstate = 1 ∧ t.dsp.txidx.toNat = k + 1) ∧ (k = 11 → t.dsp.dstate = 2) ∧
      t.dsp.att = s.dsp.att

/-- 30_encoding.md R119: the words and frames of the pseudo-directives are the operations they name. FRAME sends the
preamble, DST, SRC, CMD, the payload's length, the payload and the checksum of these, high byte first, which is an
accepted frame; BADFRAME sends the same with CKL XOR 0x01, which is rejected. -/
def Obligations.PseudoDirectivesAreTheirOperations : Prop :=
  (∀ (f : Feature) (on : Bool),
    let w : Half := BitVec.ofNat 16 (0x1000 + 16 * on.toNat + f.index.toNat)
    Directive.setFeature f on = .wr 1 w ∧ decodeCmd w = .setf on f.index) ∧
  (∀ (done err cnt : Bool),
    let w : Half := BitVec.ofNat 16 (0x2000 + done.toNat + 2 * err.toNat + 4 * cnt.toNat)
    Directive.clear done err cnt = .wr 1 w ∧ decodeCmd w = .clr cnt err done) ∧
  (Directive.noOperation = .wr 1 0x0000 ∧ decodeCmd 0x0000 = .nop) ∧
  (∀ (c : Params) (dst src cmd : Byte) (payload : List Byte), payload.length ≤ 255 →
    let len : Byte := BitVec.ofNat 8 payload.length
    let sum := (dst.toNat + src.toNat + cmd.toNat + payload.length + (payload.map BitVec.toNat).sum) % 65536
    let ckh : Byte := BitVec.ofNat 8 (sum / 256)
    let ckl : Byte := BitVec.ofNat 8 (sum % 256)
    let front := [c.preamble.b0, c.preamble.b1, c.preamble.b2, c.preamble.b3, dst, src, cmd, len] ++ payload
    let good : Frame := { dst := dst, src := src, cmd := cmd, len := len, payload := payload, ckh := ckh, ckl := ckl }
    let telem := src = c.addrPump ∧ cmd = c.cmdTelem ∧ payload.length + 10 = c.telemFrameLen
    Directive.frame c dst src cmd payload = .rx (front ++ [ckh, ckl]) ∧
    (telem → decode c (.frame (front ++ [ckh, ckl])) = .ok (.frameTelem good)) ∧
    (¬ telem → 8 < payload.length → decode c (.frame (front ++ [ckh, ckl])) = .ok (.frameStatus good)) ∧
    (¬ telem → payload.length ≤ 8 → decode c (.frame (front ++ [ckh, ckl])) = .ok (.frameSkip good)) ∧
    Directive.badFrame c dst src cmd payload = .rx (front ++ [ckh, ckl ^^^ 1]) ∧
    decode c (.frame (front ++ [ckh, ckl ^^^ 1])) = .ok (.frameBadck { good with ckl := ckl ^^^ 1 }))
end

