-- ==== Sys2Proof/Laws/State.lean ====
section
/-! SUPPORT. One lemma per field and update of the state, so that no proof unfolds a record update. -/
namespace Sys2Proof.Machine

namespace State

@[simp] theorem raise_cfg (s : State) (e : Event) : (s.raise e).cfg = s.cfg := rfl
@[simp] theorem raise_tape (s : State) (e : Event) : (s.raise e).tape = s.tape := rfl
@[simp] theorem raise_cycle (s : State) (e : Event) : (s.raise e).cycle = s.cycle := rfl
@[simp] theorem raise_out (s : State) (e : Event) : (s.raise e).out = s.out := rfl
@[simp] theorem raise_events (s : State) (e : Event) : (s.raise e).events = s.events ++ [e] := rfl
@[simp] theorem raise_ctrl (s : State) (e : Event) : (s.raise e).ctrl = s.ctrl := rfl
@[simp] theorem raise_rx (s : State) (e : Event) : (s.raise e).rx = s.rx := rfl
@[simp] theorem raise_store (s : State) (e : Event) : (s.raise e).store = s.store := rfl
@[simp] theorem raise_diag (s : State) (e : Event) : (s.raise e).diag = s.diag := rfl
@[simp] theorem raise_now (s : State) (e : Event) : (s.raise e).now = s.now := rfl
@[simp] theorem raise_dsp (s : State) (e : Event) : (s.raise e).dsp = s.dsp := rfl
@[simp] theorem raise_res (s : State) (e : Event) : (s.raise e).res = s.res := rfl
@[simp] theorem raise_err (s : State) (e : Event) : (s.raise e).err = s.err := rfl

@[simp] theorem start_cfg (s : State) (st : Bool) (feat : BitVec 4) : (s.start st feat).cfg = s.cfg := rfl
@[simp] theorem start_tape (s : State) (st : Bool) (feat : BitVec 4) : (s.start st feat).tape = s.tape := rfl
@[simp] theorem start_cycle (s : State) (st : Bool) (feat : BitVec 4) : (s.start st feat).cycle = s.cycle := rfl
@[simp] theorem start_out (s : State) (st : Bool) (feat : BitVec 4) : (s.start st feat).out = s.out := rfl
@[simp] theorem start_events (s : State) (st : Bool) (feat : BitVec 4) : (s.start st feat).events = s.events := rfl
@[simp] theorem start_ctrl (s : State) (st : Bool) (feat : BitVec 4) : (s.start st feat).ctrl = s.ctrl := rfl
@[simp] theorem start_rx (s : State) (st : Bool) (feat : BitVec 4) : (s.start st feat).rx = s.rx := rfl
@[simp] theorem start_store (s : State) (st : Bool) (feat : BitVec 4) : (s.start st feat).store = s.store := rfl
@[simp] theorem start_diag (s : State) (st : Bool) (feat : BitVec 4) : (s.start st feat).diag = s.diag := rfl
@[simp] theorem start_now (s : State) (st : Bool) (feat : BitVec 4) : (s.start st feat).now = s.now := rfl
@[simp] theorem start_dsp (s : State) (st : Bool) (feat : BitVec 4) :
    (s.start st feat).dsp =
      { dstate := dTx, cFeat := feat, cSt := st, att := 1, txidx := 0, elapsed := 0 } := rfl
@[simp] theorem start_res (s : State) (st : Bool) (feat : BitVec 4) :
    (s.start st feat).res =
      { done := false, result := false, cause := false, aborted := false } := rfl
@[simp] theorem start_err (s : State) (st : Bool) (feat : BitVec 4) : (s.start st feat).err = s.err := rfl

@[simp] theorem noTx_cfg (s : State) : (s.noTx).cfg = s.cfg := rfl
@[simp] theorem noTx_tape (s : State) : (s.noTx).tape = s.tape := rfl
@[simp] theorem noTx_cycle (s : State) : (s.noTx).cycle = s.cycle := rfl
@[simp] theorem noTx_out (s : State) : (s.noTx).out = { s.out with txValid := false, txData := 0 } := rfl
@[simp] theorem noTx_events (s : State) : (s.noTx).events = s.events := rfl
@[simp] theorem noTx_ctrl (s : State) : (s.noTx).ctrl = s.ctrl := rfl
@[simp] theorem noTx_rx (s : State) : (s.noTx).rx = s.rx := rfl
@[simp] theorem noTx_store (s : State) : (s.noTx).store = s.store := rfl
@[simp] theorem noTx_diag (s : State) : (s.noTx).diag = s.diag := rfl
@[simp] theorem noTx_now (s : State) : (s.noTx).now = s.now := rfl
@[simp] theorem noTx_dsp (s : State) : (s.noTx).dsp = s.dsp := rfl
@[simp] theorem noTx_res (s : State) : (s.noTx).res = s.res := rfl
@[simp] theorem noTx_err (s : State) : (s.noTx).err = s.err := rfl

@[simp] theorem offer_cfg (s : State) (b : Byte) : (s.offer b).cfg = s.cfg := rfl
@[simp] theorem offer_tape (s : State) (b : Byte) : (s.offer b).tape = s.tape := rfl
@[simp] theorem offer_cycle (s : State) (b : Byte) : (s.offer b).cycle = s.cycle := rfl
@[simp] theorem offer_out (s : State) (b : Byte) :
    (s.offer b).out = { s.out with txValid := true, txData := b } := rfl
@[simp] theorem offer_events (s : State) (b : Byte) : (s.offer b).events = s.events := rfl
@[simp] theorem offer_ctrl (s : State) (b : Byte) : (s.offer b).ctrl = s.ctrl := rfl
@[simp] theorem offer_rx (s : State) (b : Byte) : (s.offer b).rx = s.rx := rfl
@[simp] theorem offer_store (s : State) (b : Byte) : (s.offer b).store = s.store := rfl
@[simp] theorem offer_diag (s : State) (b : Byte) : (s.offer b).diag = s.diag := rfl
@[simp] theorem offer_now (s : State) (b : Byte) : (s.offer b).now = s.now := rfl
@[simp] theorem offer_dsp (s : State) (b : Byte) : (s.offer b).dsp = s.dsp := rfl
@[simp] theorem offer_res (s : State) (b : Byte) : (s.offer b).res = s.res := rfl
@[simp] theorem offer_err (s : State) (b : Byte) : (s.offer b).err = s.err := rfl

@[simp] theorem finish_cfg (s : State) (c : Completion) : (s.finish c).cfg = s.cfg := rfl
@[simp] theorem finish_tape (s : State) (c : Completion) : (s.finish c).tape = s.tape := rfl
@[simp] theorem finish_cycle (s : State) (c : Completion) : (s.finish c).cycle = s.cycle := rfl
@[simp] theorem finish_out (s : State) (c : Completion) :
    (s.finish c).out = { s.out with txValid := false, txData := 0 } := rfl
@[simp] theorem finish_events (s : State) (c : Completion) : (s.finish c).events = s.events := rfl
@[simp] theorem finish_ctrl (s : State) (c : Completion) : (s.finish c).ctrl = s.ctrl := rfl
@[simp] theorem finish_rx (s : State) (c : Completion) : (s.finish c).rx = s.rx := rfl
@[simp] theorem finish_store (s : State) (c : Completion) : (s.finish c).store = s.store := rfl
@[simp] theorem finish_diag (s : State) (c : Completion) : (s.finish c).diag = s.diag := rfl
@[simp] theorem finish_now (s : State) (c : Completion) : (s.finish c).now = s.now := rfl
@[simp] theorem finish_dsp (s : State) (c : Completion) :
    (s.finish c).dsp = { s.dsp with dstate := dIdle, elapsed := s.tick } := rfl
@[simp] theorem finish_res (s : State) (c : Completion) : (s.finish c).res = c := rfl
@[simp] theorem finish_err (s : State) (c : Completion) : (s.finish c).err = s.err := rfl

@[simp] theorem illegalCmd_cfg (s : State) : (s.illegalCmd).cfg = s.cfg := rfl
@[simp] theorem illegalCmd_tape (s : State) : (s.illegalCmd).tape = s.tape := rfl
@[simp] theorem illegalCmd_cycle (s : State) : (s.illegalCmd).cycle = s.cycle := rfl
@[simp] theorem illegalCmd_out (s : State) : (s.illegalCmd).out = s.out := rfl
@[simp] theorem illegalCmd_events (s : State) : (s.illegalCmd).events = s.events ++ [.illegalOp] := rfl
@[simp] theorem illegalCmd_ctrl (s : State) : (s.illegalCmd).ctrl = s.ctrl := rfl
@[simp] theorem illegalCmd_rx (s : State) : (s.illegalCmd).rx = s.rx := rfl
@[simp] theorem illegalCmd_store (s : State) : (s.illegalCmd).store = s.store := rfl
@[simp] theorem illegalCmd_diag (s : State) : (s.illegalCmd).diag = s.diag := rfl
@[simp] theorem illegalCmd_now (s : State) : (s.illegalCmd).now = s.now := rfl
@[simp] theorem illegalCmd_dsp (s : State) : (s.illegalCmd).dsp = s.dsp := rfl
@[simp] theorem illegalCmd_res (s : State) : (s.illegalCmd).res = s.res := rfl
@[simp] theorem illegalCmd_err (s : State) : (s.illegalCmd).err = { s.err with illegalOp := true } := rfl

@[simp] theorem storeUpdate_cfg (s : State) (n : Snapshot) : (s.storeUpdate n).cfg = s.cfg := rfl
@[simp] theorem storeUpdate_tape (s : State) (n : Snapshot) : (s.storeUpdate n).tape = s.tape := rfl
@[simp] theorem storeUpdate_cycle (s : State) (n : Snapshot) : (s.storeUpdate n).cycle = s.cycle := rfl
@[simp] theorem storeUpdate_out (s : State) (n : Snapshot) : (s.storeUpdate n).out = s.out := rfl
@[simp] theorem storeUpdate_events (s : State) (n : Snapshot) : (s.storeUpdate n).events = s.events := rfl
@[simp] theorem storeUpdate_ctrl (s : State) (n : Snapshot) : (s.storeUpdate n).ctrl = s.ctrl := rfl
@[simp] theorem storeUpdate_rx (s : State) (n : Snapshot) : (s.storeUpdate n).rx = s.rx := rfl
@[simp] theorem storeUpdate_store (s : State) (n : Snapshot) :
    (s.storeUpdate n).store = { snap := n, fresh := true, seq := s.store.seq + 1 } := rfl
@[simp] theorem storeUpdate_diag (s : State) (n : Snapshot) : (s.storeUpdate n).diag = s.diag := rfl
@[simp] theorem storeUpdate_now (s : State) (n : Snapshot) : (s.storeUpdate n).now = s.now := rfl
@[simp] theorem storeUpdate_dsp (s : State) (n : Snapshot) : (s.storeUpdate n).dsp = s.dsp := rfl
@[simp] theorem storeUpdate_res (s : State) (n : Snapshot) : (s.storeUpdate n).res = s.res := rfl
@[simp] theorem storeUpdate_err (s : State) (n : Snapshot) : (s.storeUpdate n).err = s.err := rfl

@[simp] theorem accept_cfg (s : State) (f : Frame) : (s.accept f).cfg = s.cfg := rfl
@[simp] theorem accept_tape (s : State) (f : Frame) : (s.accept f).tape = s.tape := rfl
@[simp] theorem accept_cycle (s : State) (f : Frame) : (s.accept f).cycle = s.cycle := rfl
@[simp] theorem accept_out (s : State) (f : Frame) : (s.accept f).out = s.out := rfl
@[simp] theorem accept_events (s : State) (f : Frame) : (s.accept f).events = s.events := rfl
@[simp] theorem accept_ctrl (s : State) (f : Frame) : (s.accept f).ctrl = s.ctrl := rfl
@[simp] theorem accept_rx (s : State) (f : Frame) : (s.accept f).rx = s.rx := rfl
@[simp] theorem accept_store (s : State) (f : Frame) : (s.accept f).store = s.store := rfl
@[simp] theorem accept_diag (s : State) (f : Frame) :
    (s.accept f).diag =
      { s.diag with cntOk := satIncr s.diag.cntOk, lfDst := f.dst, lfSrc := f.src, lfCmd := f.cmd, lfLen := f.len } := rfl
@[simp] theorem accept_now (s : State) (f : Frame) : (s.accept f).now = s.now := rfl
@[simp] theorem accept_dsp (s : State) (f : Frame) : (s.accept f).dsp = s.dsp := rfl
@[simp] theorem accept_res (s : State) (f : Frame) : (s.accept f).res = s.res := rfl
@[simp] theorem accept_err (s : State) (f : Frame) : (s.accept f).err = s.err := rfl

@[simp] theorem reject_cfg (s : State) (x y : Half) : (s.reject x y).cfg = s.cfg := rfl
@[simp] theorem reject_tape (s : State) (x y : Half) : (s.reject x y).tape = s.tape := rfl
@[simp] theorem reject_cycle (s : State) (x y : Half) : (s.reject x y).cycle = s.cycle := rfl
@[simp] theorem reject_out (s : State) (x y : Half) : (s.reject x y).out = s.out := rfl
@[simp] theorem reject_events (s : State) (x y : Half) :
    (s.reject x y).events = s.events ++ [.checksumMismatch x y] := rfl
@[simp] theorem reject_ctrl (s : State) (x y : Half) : (s.reject x y).ctrl = s.ctrl := rfl
@[simp] theorem reject_rx (s : State) (x y : Half) : (s.reject x y).rx = s.rx := rfl
@[simp] theorem reject_store (s : State) (x y : Half) : (s.reject x y).store = s.store := rfl
@[simp] theorem reject_diag (s : State) (x y : Half) :
    (s.reject x y).diag =
      { s.diag with ckRx := x, ckCalc := y, cntCkerr := satIncr s.diag.cntCkerr } := rfl
@[simp] theorem reject_now (s : State) (x y : Half) : (s.reject x y).now = s.now := rfl
@[simp] theorem reject_dsp (s : State) (x y : Half) : (s.reject x y).dsp = s.dsp := rfl
@[simp] theorem reject_res (s : State) (x y : Half) : (s.reject x y).res = s.res := rfl
@[simp] theorem reject_err (s : State) (x y : Half) : (s.reject x y).err = s.err := rfl

@[simp] theorem hunt_cfg (s : State) : (s.hunt).cfg = s.cfg := rfl
@[simp] theorem hunt_tape (s : State) : (s.hunt).tape = s.tape := rfl
@[simp] theorem hunt_cycle (s : State) : (s.hunt).cycle = s.cycle := rfl
@[simp] theorem hunt_out (s : State) : (s.hunt).out = s.out := rfl
@[simp] theorem hunt_events (s : State) : (s.hunt).events = s.events := rfl
@[simp] theorem hunt_ctrl (s : State) : (s.hunt).ctrl = s.ctrl := rfl
@[simp] theorem hunt_rx (s : State) :
    (s.hunt).rx =
      { s.rx with rstate := rHunt, wfill := 0, hcnt := 0, pcnt := 0, kcnt := 0 } := rfl
@[simp] theorem hunt_store (s : State) : (s.hunt).store = s.store := rfl
@[simp] theorem hunt_diag (s : State) : (s.hunt).diag = s.diag := rfl
@[simp] theorem hunt_now (s : State) : (s.hunt).now = s.now := rfl
@[simp] theorem hunt_dsp (s : State) : (s.hunt).dsp = s.dsp := rfl
@[simp] theorem hunt_res (s : State) : (s.hunt).res = s.res := rfl
@[simp] theorem hunt_err (s : State) : (s.hunt).err = s.err := rfl

@[simp] theorem beginCycle_cfg (s : State) : (s.beginCycle).cfg = s.cfg := rfl
@[simp] theorem beginCycle_tape (s : State) : (s.beginCycle).tape = s.tape.tail := rfl
@[simp] theorem beginCycle_cycle (s : State) : (s.beginCycle).cycle = s.cycle + 1 := rfl
@[simp] theorem beginCycle_out (s : State) : (s.beginCycle).out = s.out := rfl
@[simp] theorem beginCycle_events (s : State) : (s.beginCycle).events = [] := rfl
@[simp] theorem beginCycle_ctrl (s : State) : (s.beginCycle).ctrl = s.ctrl := rfl
@[simp] theorem beginCycle_rx (s : State) : (s.beginCycle).rx = s.rx := rfl
@[simp] theorem beginCycle_store (s : State) : (s.beginCycle).store = s.store := rfl
@[simp] theorem beginCycle_diag (s : State) : (s.beginCycle).diag = s.diag := rfl
@[simp] theorem beginCycle_now (s : State) : (s.beginCycle).now = s.now := rfl
@[simp] theorem beginCycle_dsp (s : State) : (s.beginCycle).dsp = s.dsp := rfl
@[simp] theorem beginCycle_res (s : State) : (s.beginCycle).res = s.res := rfl
@[simp] theorem beginCycle_err (s : State) : (s.beginCycle).err = s.err := rfl

@[simp] theorem forDispatcher_cfg (s h : State) : (s.forDispatcher h).cfg = s.cfg := rfl
@[simp] theorem forDispatcher_tape (s h : State) : (s.forDispatcher h).tape = s.tape := rfl
@[simp] theorem forDispatcher_cycle (s h : State) : (s.forDispatcher h).cycle = s.cycle := rfl
@[simp] theorem forDispatcher_out (s h : State) : (s.forDispatcher h).out = s.out := rfl
@[simp] theorem forDispatcher_events (s h : State) : (s.forDispatcher h).events = s.events := rfl
@[simp] theorem forDispatcher_ctrl (s h : State) : (s.forDispatcher h).ctrl = s.ctrl := rfl
@[simp] theorem forDispatcher_rx (s h : State) : (s.forDispatcher h).rx = s.rx := rfl
@[simp] theorem forDispatcher_store (s h : State) : (s.forDispatcher h).store = s.store := rfl
@[simp] theorem forDispatcher_diag (s h : State) : (s.forDispatcher h).diag = s.diag := rfl
@[simp] theorem forDispatcher_now (s h : State) : (s.forDispatcher h).now = s.now := rfl
@[simp] theorem forDispatcher_dsp (s h : State) : (s.forDispatcher h).dsp = s.dsp := rfl
@[simp] theorem forDispatcher_res (s h : State) : (s.forDispatcher h).res = h.res := rfl
@[simp] theorem forDispatcher_err (s h : State) : (s.forDispatcher h).err = s.err := rfl

@[simp] theorem forReader_cfg (s h d : State) : (s.forReader h d).cfg = s.cfg := rfl
@[simp] theorem forReader_tape (s h d : State) : (s.forReader h d).tape = s.tape := rfl
@[simp] theorem forReader_cycle (s h d : State) : (s.forReader h d).cycle = s.cycle := rfl
@[simp] theorem forReader_out (s h d : State) : (s.forReader h d).out = s.out := rfl
@[simp] theorem forReader_events (s h d : State) : (s.forReader h d).events = s.events := rfl
@[simp] theorem forReader_ctrl (s h d : State) : (s.forReader h d).ctrl = s.ctrl := rfl
@[simp] theorem forReader_rx (s h d : State) : (s.forReader h d).rx = s.rx := rfl
@[simp] theorem forReader_store (s h d : State) :
    (s.forReader h d).store = { s.store with fresh := d.store.fresh } := rfl
@[simp] theorem forReader_diag (s h d : State) : (s.forReader h d).diag = h.diag := rfl
@[simp] theorem forReader_now (s h d : State) : (s.forReader h d).now = s.now := rfl
@[simp] theorem forReader_dsp (s h d : State) : (s.forReader h d).dsp = s.dsp := rfl
@[simp] theorem forReader_res (s h d : State) : (s.forReader h d).res = s.res := rfl
@[simp] theorem forReader_err (s h d : State) : (s.forReader h d).err = s.err := rfl

@[simp] theorem feed_cfg (s : State) (i : CycleIn) : (s.feed i).cfg = s.cfg := rfl
@[simp] theorem feed_tape (s : State) (i : CycleIn) : (s.feed i).tape = i :: s.tape := rfl
@[simp] theorem feed_cycle (s : State) (i : CycleIn) : (s.feed i).cycle = s.cycle := rfl
@[simp] theorem feed_out (s : State) (i : CycleIn) : (s.feed i).out = s.out := rfl
@[simp] theorem feed_events (s : State) (i : CycleIn) : (s.feed i).events = s.events := rfl
@[simp] theorem feed_ctrl (s : State) (i : CycleIn) : (s.feed i).ctrl = s.ctrl := rfl
@[simp] theorem feed_rx (s : State) (i : CycleIn) : (s.feed i).rx = s.rx := rfl
@[simp] theorem feed_store (s : State) (i : CycleIn) : (s.feed i).store = s.store := rfl
@[simp] theorem feed_diag (s : State) (i : CycleIn) : (s.feed i).diag = s.diag := rfl
@[simp] theorem feed_now (s : State) (i : CycleIn) : (s.feed i).now = s.now := rfl
@[simp] theorem feed_dsp (s : State) (i : CycleIn) : (s.feed i).dsp = s.dsp := rfl
@[simp] theorem feed_res (s : State) (i : CycleIn) : (s.feed i).res = s.res := rfl
@[simp] theorem feed_err (s : State) (i : CycleIn) : (s.feed i).err = s.err := rfl

@[simp] theorem merge_cfg (s q h d r : State) : (s.merge q h d r).cfg = s.cfg := rfl
@[simp] theorem merge_tape (s q h d r : State) : (s.merge q h d r).tape = s.tape := rfl
@[simp] theorem merge_cycle (s q h d r : State) : (s.merge q h d r).cycle = s.cycle := rfl
@[simp] theorem merge_out (s q h d r : State) :
    (s.merge q h d r).out =
      { txValid := d.out.txValid, txData := d.out.txData, hRdata := q.out.hRdata, irq := s.irq, linkFail := s.err.linkFail } := rfl
@[simp] theorem merge_events (s q h d r : State) : (s.merge q h d r).events = h.events ++ r.events ++ d.events := rfl
@[simp] theorem merge_ctrl (s q h d r : State) : (s.merge q h d r).ctrl = h.ctrl := rfl
@[simp] theorem merge_rx (s q h d r : State) : (s.merge q h d r).rx = r.rx := rfl
@[simp] theorem merge_store (s q h d r : State) : (s.merge q h d r).store = r.store := rfl
@[simp] theorem merge_diag (s q h d r : State) : (s.merge q h d r).diag = r.diag := rfl
@[simp] theorem merge_now (s q h d r : State) : (s.merge q h d r).now = s.now + 1 := rfl
@[simp] theorem merge_dsp (s q h d r : State) : (s.merge q h d r).dsp = d.dsp := rfl
@[simp] theorem merge_res (s q h d r : State) : (s.merge q h d r).res = d.res := rfl
@[simp] theorem merge_err (s q h d r : State) :
    (s.merge q h d r).err =
      { illegalOp := h.err.illegalOp, cmdOverrun := h.err.cmdOverrun, linkFail := r.err.linkFail } := rfl

end State

end Sys2Proof.Machine
end

