-- ==== Sys2Proof/Laws/Pbuf.lean ====
section
/-! SUPPORT. The laws of PBUF: a write is read back, it leaves every other entry alone, and it keeps the canonical
form. -/
namespace Sys2Proof.Machine

namespace Pbuf

/-- Nothing is listed below the bound of the canonical form. -/
theorem read_below (m : Pbuf) (lo i : Nat) (h : wfFrom lo m = true) (hi : i < lo) : read m i = 0#8 := by
  induction m generalizing lo with
  | nil => rfl
  | cons c m ih =>
    obtain ⟨a, v⟩ := c
    simp only [wfFrom, Bool.and_eq_true, decide_eq_true_eq] at h
    have hne : a ≠ i := by omega
    simp only [read, hne, if_false]
    exact ih (a + 1) h.2 (by omega)

/-- The canonical form with a bound has it with every lower bound. -/
theorem wfFrom_mono (m : Pbuf) (lo lo' : Nat) (h : wfFrom lo m = true) (hl : lo' ≤ lo) : wfFrom lo' m = true := by
  cases m with
  | nil => rfl
  | cons c m =>
    obtain ⟨a, v⟩ := c
    simp only [wfFrom, Bool.and_eq_true, decide_eq_true_eq] at h ⊢
    exact ⟨⟨⟨by omega, h.1.1.2⟩, h.1.2⟩, h.2⟩

theorem read_write_self_from (m : Pbuf) (lo i : Nat) (b : Byte) (h : wfFrom lo m = true) :
    read (write m i b) i = b := by
  induction m generalizing lo with
  | nil => by_cases hb : b = 0#8 <;> simp [write, read, hb]
  | cons c m ih =>
    obtain ⟨a, v⟩ := c
    simp only [wfFrom, Bool.and_eq_true, decide_eq_true_eq] at h
    rcases Nat.lt_trichotomy i a with hlt | heq | hgt
    · by_cases hb : b = 0#8
      · have := read_below m (a + 1) i h.2 (by omega)
        have hne : a ≠ i := by omega
        simp [write, hlt, hb, read, hne, this]
      · simp [write, hlt, hb, read]
    · subst heq
      by_cases hb : b = 0#8
      · have := read_below m (i + 1) i h.2 (by omega)
        simp [write, hb, this]
      · simp [write, hb, read]
    · have h1 : ¬ i < a := by omega
      have h2 : ¬ i = a := by omega
      have h3 : a ≠ i := by omega
      simp only [write, h1, h2, if_false, read, h3]
      exact ih (a + 1) h.2

/-- The byte written is the byte read. -/
theorem read_write_self (m : Pbuf) (i : Nat) (b : Byte) (h : m.wf = true) : (m.write i b).read i = b :=
  read_write_self_from m 0 i b h

/-- A write leaves every other entry alone. -/
theorem read_write_other (m : Pbuf) (i j : Nat) (b : Byte) (h : j ≠ i) : (m.write i b).read j = m.read j := by
  induction m with
  | nil =>
    have : i ≠ j := fun e => h e.symm
    by_cases hb : b = 0#8 <;> simp [write, read, hb, this]
  | cons c m ih =>
    obtain ⟨a, v⟩ := c
    have hij : i ≠ j := fun e => h e.symm
    rcases Nat.lt_trichotomy i a with hlt | heq | hgt
    · by_cases hb : b = 0#8 <;> simp [write, hlt, hb, read, hij]
    · subst heq
      by_cases hb : b = 0#8 <;> simp [write, hb, read, hij]
    · have h1 : ¬ i < a := by omega
      have h2 : ¬ i = a := by omega
      simp only [write, h1, h2, if_false, read, ih]

theorem write_wfFrom (m : Pbuf) (lo i : Nat) (b : Byte) (h : wfFrom lo m = true) (hl : lo ≤ i) (hi : i < 255) :
    wfFrom lo (write m i b) = true := by
  induction m generalizing lo with
  | nil => by_cases hb : b = 0#8 <;> simp [write, wfFrom, hb, hl, hi]
  | cons c m ih =>
    obtain ⟨a, v⟩ := c
    have h' := h
    simp only [wfFrom, Bool.and_eq_true, decide_eq_true_eq] at h
    rcases Nat.lt_trichotomy i a with hlt | heq | hgt
    · by_cases hb : b = 0#8
      · simpa [write, hlt, hb] using h'
      · simp only [write, hlt, hb, if_true, if_false, wfFrom, Bool.and_eq_true, decide_eq_true_eq, bne_iff_ne, ne_eq,
          not_false_eq_true, and_true]
        exact ⟨⟨hl, hi⟩, ⟨⟨by omega, h.1.1.2⟩, by simpa using h.1.2⟩, h.2⟩
    · subst heq
      by_cases hb : b = 0#8
      · simpa [write, hb] using wfFrom_mono m (i + 1) lo h.2 (by omega)
      · simp only [write, hb, lt_self_iff_false, if_true, if_false, wfFrom, Bool.and_eq_true, decide_eq_true_eq,
          bne_iff_ne, ne_eq, not_false_eq_true, and_true]
        exact ⟨⟨hl, hi⟩, h.2⟩
    · have h1 : ¬ i < a := by omega
      have h2 : ¬ i = a := by omega
      simp only [write, h1, h2, if_false, wfFrom, Bool.and_eq_true, decide_eq_true_eq]
      exact ⟨h.1, ih (a + 1) h.2 (by omega)⟩

/-- A write to an entry of PBUF keeps the canonical form. -/
theorem write_wf (m : Pbuf) (i : Nat) (b : Byte) (h : m.wf = true) (hi : i < 255) : (m.write i b).wf = true :=
  write_wfFrom m 0 i b h (Nat.zero_le _) hi

/-- PBUF after reset is canonical. -/
theorem reset_wf (c : Params) (tape : List CycleIn) : (State.powerOn c tape).rx.pbuf.wf = true := rfl

end Pbuf

end Sys2Proof.Machine
end

