-- ==== Sys2Proof/Laws/Units.lean ====
section
/-! SUPPORT. Once for each shared operation of the cycle, all it can do: sequencing, one unit, the FrameReader's
completion of a frame, and what each unit of a cycle leaves alone. -/
namespace Sys2Proof.Machine

theorem andThen_eq_next {o : Host.Outcome State Fault Refusal} {k : State → Host.Outcome State Fault Refusal}
    {t : State} (h : andThen o k = .next t) : ∃ s, o = .next s ∧ k s = .next t := by
  cases o with
  | next s => exact ⟨s, rfl, h⟩
  | fault r => cases h
  | refused r => cases h

/-- A unit that has a next state has run the operation its code decodes to. -/
theorem runUnit_eq_next {code : Code} {s t : State} (h : runUnit code s = .next t) :
    ∃ i, decode s.cfg code = .ok i ∧ exec i s = .next t := by
  unfold runUnit at h
  split at h
  · exact ⟨_, ‹_›, h⟩
  · cases h

/-- A cycle that has a next state is a reset cycle, or a cycle in which the four units ran and were merged. -/
theorem runCycle_eq_next {s t : State} (h : runCycle s = .next t) :
    s.cfg.wf = true ∧
    ((s.input.rst = true ∧ t = s.resetCycle s.input) ∨
     (s.input.rst = false ∧ s.legal = true ∧ ∃ q h d r,
        runUnit (State.readCode s.input) s.beginCycle = .next q ∧
        runUnit (State.hostCode s.input) s.beginCycle = .next h ∧
        runUnit (.dsp (s.beginCycle.dspSel s.input)) (s.beginCycle.forDispatcher h) = .next d ∧
        runUnit (.rx (s.beginCycle.rxSel s.input)) (s.beginCycle.forReader h d) = .next r ∧
        t = s.beginCycle.merge q h d r)) := by
  unfold runCycle at h
  split at h
  · cases h
  · rename_i hwf
    refine ⟨by simpa using hwf, ?_⟩
    split at h
    · rename_i hr
      exact .inl ⟨hr, by cases h; rfl⟩
    · rename_i hr
      split at h
      · cases h
      · rename_i hl
        obtain ⟨q, hq, h⟩ := andThen_eq_next h
        obtain ⟨u, hu, h⟩ := andThen_eq_next h
        obtain ⟨d, hd, h⟩ := andThen_eq_next h
        obtain ⟨r, hrr, h⟩ := andThen_eq_next h
        exact .inr ⟨by simpa using hr, by simpa using hl, q, u, d, r, hq, hu, hd, hrr, by cases h; rfl⟩

/-- What a completed frame can do: a store update, an acceptance without one, or a rejection. -/
theorem completeFrame_eq_next {f : Frame} {s t : State} (h : completeFrame f s = .next t) :
    (f.ck = s.rx.sum ∧
      ((f.kind s.cfg = .telem ∧ t = (s.accept f).storeUpdate (telemSnap s.cfg f s.store.snap)) ∨
       (f.kind s.cfg = .status ∧ t = (s.accept f).storeUpdate (statusSnap s.cfg f s.now s.store.snap)) ∨
       (f.kind s.cfg = .skip ∧ t = (s.accept f).raise .decodeSkip))) ∨
    (f.ck ≠ s.rx.sum ∧ t = s.reject f.ck s.rx.sum) := by
  unfold completeFrame at h
  split at h
  · rename_i hc
    refine .inl ⟨hc, ?_⟩
    split at h
    · rename_i hk
      unfold execFrameTelem at h
      split at h
      · exact .inl ⟨hk, by cases h; rfl⟩
      · cases h
    · rename_i hk
      unfold execFrameStatus at h
      split at h
      · exact .inr (.inl ⟨hk, by cases h; rfl⟩)
      · cases h
    · rename_i hk
      exact .inr (.inr ⟨hk, by cases h; rfl⟩)
  · rename_i hc
    exact .inr ⟨hc, by cases h; rfl⟩

/-- The command-frame byte source only offers a byte. -/
theorem execCmdFrame_eq_next {feat : BitVec 4} {st : Bool} {s t : State} (h : execCmdFrame feat st s = .next t) :
    ∃ b, s.txByte feat st = some b ∧ t = s.offer b := by
  unfold execCmdFrame at h
  split at h
  · exact ⟨_, ‹_›, by cases h; rfl⟩
  · cases h

end Sys2Proof.Machine
end

