-- ==== Sys2Proof/Laws/Arith.lean ====
section
/-! SUPPORT. The shared computations of the model as natural-number arithmetic. -/
namespace Sys2Proof

theorem timeoutTicks_eq (c : Params) : c.timeoutTicks = 5 * c.fClkHz := rfl

theorem telemLen_eq (c : Params) : c.telemLen = c.telemFrameLen - 10 := rfl

theorem flen_eq (len : Byte) : flen len = len.toNat + 10 := by
  simp only [flen, Config.preLen, Config.hdrLen, Config.ckLen]
  omega

theorem toNat_append_byte (a b : Byte) : (a ++ b).toNat = 256 * a.toNat + b.toNat := by
  rw [BitVec.toNat_append, ← Nat.shiftLeft_add_eq_or_of_lt b.isLt, Nat.shiftLeft_eq]
  omega

theorem beHalf_toNat (hi lo : Byte) : (beHalf hi lo).toNat = 256 * hi.toNat + lo.toNat := toNat_append_byte hi lo

theorem beHalf_eq_ofNat (hi lo : Byte) : beHalf hi lo = BitVec.ofNat 16 (256 * hi.toNat + lo.toNat) := by
  apply BitVec.eq_of_toNat_eq
  have := hi.isLt
  have := lo.isLt
  rw [beHalf_toNat, BitVec.toNat_ofNat]
  omega

theorem hiByte_toNat (v : Half) : (hiByte v).toNat = v.toNat / 256 := by
  have := v.isLt
  simp only [hiByte, BitVec.extractLsb'_toNat, Nat.shiftRight_eq_div_pow]
  omega

theorem loByte_toNat (v : Half) : (loByte v).toNat = v.toNat % 256 := by
  simp [loByte, BitVec.extractLsb'_toNat]

/-- The two bytes of a 16-bit value make it again. -/
theorem beHalf_hi_lo (v : Half) : beHalf (hiByte v) (loByte v) = v := by
  apply BitVec.eq_of_toNat_eq
  rw [beHalf_toNat, hiByte_toNat, loByte_toNat]
  omega

theorem cksum_toNat (bs : List Byte) : (cksum bs).toNat = (bs.map BitVec.toNat).sum % 65536 := by
  simp [cksum]

namespace Machine

theorem tmo_eq_true_iff (s : State) : s.tmo = true ↔ 5 * s.cfg.fClkHz < s.dsp.elapsed := decide_eq_true_iff

theorem tmo_eq_false_iff (s : State) : s.tmo = false ↔ s.dsp.elapsed ≤ 5 * s.cfg.fClkHz := by
  rw [← Bool.not_eq_true, tmo_eq_true_iff, Nat.not_lt]

theorem lastByte_iff (s : State) : s.lastByte = true ↔ s.dsp.txidx = 11 := beq_iff_eq

theorem attLeft_iff (s : State) : s.attLeft = true ↔ s.dsp.att.toNat < 5 := decide_eq_true_iff

theorem busy_iff (s : State) : s.busy = true ↔ s.dsp.dstate ≠ 0 := bne_iff_ne

theorem legal_iff (s : State) : s.legal = true ↔
    s.rx.rstate.toNat ≤ 4 ∧ s.rx.wfill.toNat ≤ 4 ∧ s.dsp.dstate.toNat ≤ 2 ∧ s.dsp.txidx.toNat ≤ 11 ∧
      s.dsp.att.toNat ≤ 5 ∧ s.dsp.cFeat.toNat < 9 := by
  simp [State.legal, and_assoc]

theorem satIncr_eq_ofNat (v : Half) : satIncr v = BitVec.ofNat 16 (min (v.toNat + 1) 65535) := by
  unfold satIncr
  split
  · subst_vars
    rfl
  · rename_i h
    have : v.toNat ≠ 65535 := fun e => h (BitVec.eq_of_toNat_eq e)
    have := v.isLt
    apply BitVec.eq_of_toNat_eq
    have h1 : (1 : Half).toNat = 1 := rfl
    simp only [BitVec.toNat_add, BitVec.toNat_ofNat, h1]
    omega

theorem addByte_toNat (v : Half) (b : Byte) : (addByte v b).toNat = (v.toNat + b.toNat) % 65536 := by
  simp [addByte]

theorem addByte_eq_ofNat (v : Half) (b : Byte) : addByte v b = BitVec.ofNat 16 ((v.toNat + b.toNat) % 65536) := by
  apply BitVec.eq_of_toNat_eq
  simp [addByte_toNat]

/-- One more byte at the end of the summed bytes. -/
theorem cksum_append_one (bs : List Byte) (b : Byte) : cksum (bs ++ [b]) = addByte (cksum bs) b := by
  apply BitVec.eq_of_toNat_eq
  rw [addByte_toNat, cksum_toNat, cksum_toNat]
  simp

theorem fillUp_toNat (n : BitVec 3) : (fillUp n).toNat = min (n.toNat + 1) 4 := by
  revert n
  decide

theorem equipOf_toNat (e1 e2 : Byte) : (equipOf e1 e2).toNat = 256 * (e2.toNat % 2) + e1.toNat := by
  simp only [equipOf, BitVec.toNat_append, BitVec.extractLsb'_toNat]
  rw [← Nat.shiftLeft_add_eq_or_of_lt e1.isLt, Nat.shiftLeft_eq]
  simp
  omega

end Machine

end Sys2Proof
end

