-- ==== Sys2Proof/Laws/Cycle.lean ====
section
/-! SUPPORT. What each of the four units of a cycle can do, case by case, and what it leaves alone. With
`runCycle_eq_next` (Laws/Units.lean) a proof about a step needs no unfolding of the cycle. -/
namespace Sys2Proof.Machine

/-- The read port always shows the addressed register and writes no other field. -/
theorem readUnit_eq (i : CycleIn) (s : State) :
    runUnit (State.readCode i) s = .next { s with out := { s.out with hRdata := s.regRead i.hAddr } } := rfl

theorem runUnit_of_decode {code : Code} {s : State} {i : Instr} (h : decode s.cfg code = .ok i) :
    runUnit code s = exec i s := by
  unfold runUnit
  rw [h]

/-- The host unit: the access that `h_we` and `h_addr` select. -/
theorem hostUnit_eq (i : CycleIn) (s : State) :
    runUnit (State.hostCode i) s =
      (if i.hWe then
        if i.hAddr = 0 then execRegWriteCtrl i.hWdata s
        else if i.hAddr = 1 then execRegWriteCmd i.hWdata s
        else .next s
      else .next { s with out := { s.out with hRdata := s.regRead i.hAddr } }) := by
  rw [runUnit_of_decode (i := decodeHost i.hWe i.hAddr i.hWdata) rfl]
  unfold decodeHost
  split
  · split
    · rfl
    · split <;> rfl
  · rfl

/-- What a write to CMD can do: record an illegal word, nothing, start or refuse a command, or clear. -/
theorem execRegWriteCmd_cases (w : Half) (s : State) :
    (illegalWord w = true ∧ execRegWriteCmd w s = .next s.illegalCmd) ∨
    (illegalWord w = false ∧ w.extractLsb' 12 4 = 0 ∧ execRegWriteCmd w s = .next s) ∨
    (illegalWord w = false ∧ w.extractLsb' 12 4 = 1 ∧ s.dsp.dstate = dIdle ∧
      execRegWriteCmd w s = .next (s.start (w.getLsbD 4) (w.extractLsb' 0 4))) ∨
    (illegalWord w = false ∧ w.extractLsb' 12 4 = 1 ∧ s.dsp.dstate ≠ dIdle ∧
      execRegWriteCmd w s =
        .next { s with err := { s.err with cmdOverrun := true }, events := s.events ++ [.cmdOverrun] }) ∨
    (illegalWord w = false ∧ w.extractLsb' 12 4 ≠ 0 ∧ w.extractLsb' 12 4 ≠ 1 ∧
      execRegWriteCmd w s = execClr (w.getLsbD 2) (w.getLsbD 1) (w.getLsbD 0) s) := by
  unfold execRegWriteCmd
  by_cases hi : illegalWord w = true
  · exact .inl ⟨hi, by rw [if_pos hi]⟩
  · have hi' : illegalWord w = false := by simpa using hi
    by_cases h0 : w.extractLsb' 12 4 = 0
    · exact .inr (.inl ⟨hi', h0, by rw [if_neg hi, if_pos h0]; rfl⟩)
    · by_cases h1 : w.extractLsb' 12 4 = 1
      · by_cases hd : s.dsp.dstate = dIdle
        · refine .inr (.inr (.inl ⟨hi', h1, hd, ?_⟩))
          rw [if_neg hi, if_neg h0, if_pos h1, execSetf, if_pos hd]
        · refine .inr (.inr (.inr (.inl ⟨hi', h1, hd, ?_⟩)))
          rw [if_neg hi, if_neg h0, if_pos h1, execSetf, if_neg hd]
      · refine .inr (.inr (.inr (.inr ⟨hi', h0, h1, ?_⟩)))
        rw [if_neg hi, if_neg h0, if_neg h1]

/-- The host unit always has a next state and writes none of the FrameReader's, the StatusStore's or the time base's
fields; it starts a command exactly where `startOf` says and the dispatcher is idle. -/
theorem hostUnit_next (i : CycleIn) (s : State) :
    ∃ h, runUnit (State.hostCode i) s = .next h ∧ h.cfg = s.cfg ∧ h.tape = s.tape ∧ h.cycle = s.cycle ∧ h.rx = s.rx ∧
      h.store = s.store ∧ h.now = s.now ∧ h.err.linkFail = s.err.linkFail ∧
      h.diag = { s.diag with cntOk := h.diag.cntOk, cntCkerr := h.diag.cntCkerr } := by
  rw [hostUnit_eq]
  split
  · split
    · exact ⟨_, rfl, rfl, rfl, rfl, rfl, rfl, rfl, rfl, rfl⟩
    · split
      · rcases execRegWriteCmd_cases i.hWdata s with ⟨-, h⟩ | ⟨-, -, h⟩ | ⟨-, -, -, h⟩ | ⟨-, -, -, h⟩ | ⟨-, -, -, h⟩
        · exact ⟨_, h, rfl, rfl, rfl, rfl, rfl, rfl, rfl, rfl⟩
        · exact ⟨_, h, rfl, rfl, rfl, rfl, rfl, rfl, rfl, rfl⟩
        · exact ⟨_, h, rfl, rfl, rfl, rfl, rfl, rfl, rfl, rfl⟩
        · exact ⟨_, h, rfl, rfl, rfl, rfl, rfl, rfl, rfl, rfl⟩
        · refine ⟨_, h, rfl, rfl, rfl, rfl, rfl, rfl, ?_, ?_⟩
          · cases i.hWdata.getLsbD 1 <;> rfl
          · cases i.hWdata.getLsbD 2 <;> rfl
      · exact ⟨_, rfl, rfl, rfl, rfl, rfl, rfl, rfl, rfl, rfl⟩
  · exact ⟨_, rfl, rfl, rfl, rfl, rfl, rfl, rfl, rfl, rfl⟩

/-- The completion flags after the host unit: as before, or all 0 by a clear or by a command that starts in IDLE. -/
theorem hostUnit_res {i : CycleIn} {s h : State} (hh : runUnit (State.hostCode i) s = .next h) :
    h.res = s.res ∨ h.res = { done := false, result := false, cause := false, aborted := false } := by
  rw [hostUnit_eq] at hh
  split at hh
  · split at hh
    · cases hh
      exact .inl rfl
    · split at hh
      · rcases execRegWriteCmd_cases i.hWdata s with ⟨-, e⟩ | ⟨-, -, e⟩ | ⟨-, -, -, e⟩ | ⟨-, -, -, e⟩ | ⟨-, -, -, e⟩
        · rw [e] at hh
          cases hh
          exact .inl rfl
        · rw [e] at hh
          cases hh
          exact .inl rfl
        · rw [e] at hh
          cases hh
          exact .inr rfl
        · rw [e] at hh
          cases hh
          exact .inl rfl
        · rw [e] at hh
          cases hh
          show (if _ then _ else _) = s.res ∨ (if _ then _ else _) = _
          split
          · exact .inr rfl
          · exact .inl rfl
      · cases hh
        exact .inl rfl
  · cases hh
    exact .inl rfl

/-- A command that `startOf` reads has a feature index below 9. -/
theorem startOf_legal {i : CycleIn} {st : Bool} {feat : BitVec 4} (h : State.startOf i = some (st, feat)) :
    feat.toNat < Config.nFeatures := by
  unfold State.startOf at h
  split at h
  · rename_i hc
    simp only [Bool.and_eq_true, Bool.not_eq_true', beq_iff_eq] at hc
    obtain ⟨⟨-, hl⟩, h1⟩ := hc
    simp only [Option.some.injEq, Prod.mk.injEq] at h
    rw [← h.2]
    by_contra hn
    have : illegalWord i.hWdata = true := by
      unfold illegalWord
      rw [h1]
      simp only [Bool.or_eq_true, Bool.and_eq_true, beq_iff_eq, bne_iff_ne, decide_eq_true_eq]
      exact .inl (.inr ⟨rfl, .inr (by omega)⟩)
    rw [this] at hl
    cases hl
  · cases h

/-- The dispatcher's selection, row by row (43_command_dispatcher.md R230, R233, R236). -/
theorem decodeDsp_cases {x : DspSel} {op : Instr} (h : decodeDsp x = .ok op) :
    (∃ st feat, x.dstate = 0 ∧ x.start = some (st, feat) ∧ op = .dspStart st feat) ∨
    (x.dstate = 0 ∧ x.start = none ∧ op = .dspIdle) ∨
    (x.dstate = 1 ∧ x.tmo = true ∧ op = .dspWallTimeout 1) ∨
    (x.dstate = 1 ∧ x.tmo = false ∧ x.ready = true ∧ x.last = true ∧ op = .dspTxEnd) ∨
    (x.dstate = 1 ∧ x.tmo = false ∧ (x.ready && x.last) = false ∧ op = .dspTx x.ready) ∨
    (x.dstate = 2 ∧ x.fresh = true ∧ x.matched = true ∧ op = .dspSuccess) ∨
    (x.dstate = 2 ∧ (x.fresh && x.matched) = false ∧ x.tmo = true ∧ op = .dspWallTimeout 2) ∨
    (x.dstate = 2 ∧ x.tmo = false ∧ x.fresh = true ∧ x.matched = false ∧ x.attLeft = true ∧ op = .dspRetry) ∨
    (x.dstate = 2 ∧ x.tmo = false ∧ x.fresh = true ∧ x.matched = false ∧ x.attLeft = false ∧ op = .dspExhaust) ∨
    (x.dstate = 2 ∧ x.tmo = false ∧ x.fresh = false ∧ op = .dspWait) := by
  obtain ⟨dstate, start, tmo, ready, last, fresh, matched, attLeft⟩ := x
  unfold decodeDsp at h
  dsimp only at h ⊢
  split at h
  · rename_i h0
    subst h0
    rcases start with _ | ⟨st, feat⟩ <;> cases h <;> simp
  · split at h
    · rename_i h1
      subst h1
      cases tmo <;> cases ready <;> cases last <;> cases h <;> simp
    · split at h
      · rename_i h2
        subst h2
        cases tmo <;> cases fresh <;> cases matched <;> cases attLeft <;> cases h <;> simp
      · cases h

/-- The dispatcher's unit runs one of its operations, each under the condition of its row. -/
theorem dspUnit_cases {i : CycleIn} {s t : State} (h : runUnit (.dsp (s.dspSel i)) s = .next t) :
    (∃ st feat, s.dsp.dstate = 0 ∧ State.startOf i = some (st, feat) ∧ t = (s.start st feat).noTx) ∨
    (s.dsp.dstate = 0 ∧ State.startOf i = none ∧ t = s.noTx) ∨
    (s.dsp.dstate = 1 ∧ s.tmo = true ∧ execDspWallTimeout 1 s = .next t) ∨
    (s.dsp.dstate = 1 ∧ s.tmo = false ∧ i.txReady = true ∧ s.lastByte = true ∧ execDspTxEnd s = .next t) ∨
    (s.dsp.dstate = 1 ∧ s.tmo = false ∧ (i.txReady && s.lastByte) = false ∧ execDspTx i.txReady s = .next t) ∨
    (s.dsp.dstate = 2 ∧ s.store.fresh = true ∧ s.matched = true ∧ execDspSuccess s = .next t) ∨
    (s.dsp.dstate = 2 ∧ (s.store.fresh && s.matched) = false ∧ s.tmo = true ∧ execDspWallTimeout 2 s = .next t) ∨
    (s.dsp.dstate = 2 ∧ s.tmo = false ∧ s.store.fresh = true ∧ s.matched = false ∧ s.attLeft = true ∧
      execDspRetry s = .next t) ∨
    (s.dsp.dstate = 2 ∧ s.tmo = false ∧ s.store.fresh = true ∧ s.matched = false ∧ s.attLeft = false ∧
      execDspExhaust s = .next t) ∨
    (s.dsp.dstate = 2 ∧ s.tmo = false ∧ s.store.fresh = false ∧ execDspWait s = .next t) := by
  obtain ⟨op, hd, he⟩ := runUnit_eq_next h
  rcases decodeDsp_cases (x := s.dspSel i) hd with
    ⟨st, feat, h0, hs, rfl⟩ | ⟨h0, hs, rfl⟩ | ⟨h1, ht, rfl⟩ | ⟨h1, ht, hr, hl, rfl⟩ | ⟨h1, ht, hl, rfl⟩ |
    ⟨h2, hf, hm, rfl⟩ | ⟨h2, hf, ht, rfl⟩ | ⟨h2, ht, hf, hm, ha, rfl⟩ | ⟨h2, ht, hf, hm, ha, rfl⟩ | ⟨h2, ht, hf, rfl⟩
  · cases he
    exact .inl ⟨_, _, h0, hs, rfl⟩
  · cases he
    exact .inr (.inl ⟨h0, hs, rfl⟩)
  · exact .inr (.inr (.inl ⟨h1, ht, he⟩))
  · exact .inr (.inr (.inr (.inl ⟨h1, ht, hr, hl, he⟩)))
  · exact .inr (.inr (.inr (.inr (.inl ⟨h1, ht, hl, he⟩))))
  · exact .inr (.inr (.inr (.inr (.inr (.inl ⟨h2, hf, hm, he⟩)))))
  · exact .inr (.inr (.inr (.inr (.inr (.inr (.inl ⟨h2, hf, ht, he⟩))))))
  · exact .inr (.inr (.inr (.inr (.inr (.inr (.inr (.inl ⟨h2, ht, hf, hm, ha, he⟩)))))))
  · exact .inr (.inr (.inr (.inr (.inr (.inr (.inr (.inr (.inl ⟨h2, ht, hf, hm, ha, he⟩))))))))
  · exact .inr (.inr (.inr (.inr (.inr (.inr (.inr (.inr (.inr ⟨h2, ht, hf, he⟩))))))))

/-- The FrameReader's selection, row by row (40_frame_reader.md R140). -/
theorem decodeRx_cases {x : RxSel} {op : Instr} (h : decodeRx x = .ok op) :
    (x.chanFail = true ∧ op = .rxFail) ∨
    (x.chanFail = false ∧ x.rstate = 4 ∧ op = .rxDead) ∨
    (x.chanFail = false ∧ x.rstate ≠ 4 ∧ x.rxEn = false ∧ op = .rxOff) ∨
    (x.chanFail = false ∧ x.rstate ≠ 4 ∧ x.rxEn = true ∧ x.rxValid = false ∧ op = .rxNone) ∨
    (x.chanFail = false ∧ x.rxEn = true ∧ x.rxValid = true ∧
      ((x.rstate = 0 ∧ op = .rxHunt x.data) ∨ (x.rstate = 1 ∧ op = .rxHdr x.data) ∨
       (x.rstate = 2 ∧ op = .rxPay x.data) ∨ (x.rstate = 3 ∧ x.kcnt = 0 ∧ op = .rxCk0 x.data) ∨
       (x.rstate = 3 ∧ x.kcnt = 1 ∧ op = .rxCk1 x.data))) := by
  obtain ⟨chanFail, rxEn, rxValid, rstate, kcnt, data⟩ := x
  unfold decodeRx at h
  dsimp only at h ⊢
  cases chanFail with
  | true =>
    cases h
    exact .inl ⟨rfl, rfl⟩
  | false =>
    refine .inr ?_
    rw [if_neg Bool.false_ne_true] at h
    split at h
    · cases h
      exact .inl ⟨rfl, ‹_›, rfl⟩
    · rename_i h4
      refine .inr ?_
      cases rxEn with
      | false =>
        cases h
        exact .inl ⟨rfl, h4, rfl, rfl⟩
      | true =>
        refine .inr ?_
        cases rxValid with
        | false =>
          cases h
          exact .inl ⟨rfl, h4, rfl, rfl, rfl⟩
        | true =>
          refine .inr ⟨rfl, rfl, rfl, ?_⟩
          simp only [Bool.not_true, Bool.false_eq_true, if_false] at h
          split at h
          · cases h
            exact .inl ⟨‹_›, rfl⟩
          · split at h
            · cases h
              exact .inr (.inl ⟨‹_›, rfl⟩)
            · split at h
              · cases h
                exact .inr (.inr (.inl ⟨‹_›, rfl⟩))
              · split at h
                · split at h
                  · cases h
                    exact .inr (.inr (.inr (.inl ⟨‹_›, ‹_›, rfl⟩)))
                  · rename_i h3 hk
                    cases h
                    refine .inr (.inr (.inr (.inr ⟨h3, ?_, rfl⟩)))
                    revert hk
                    revert kcnt
                    decide
                · cases h

/-- The FrameReader's unit runs one of nine operations, each under the condition of 40_frame_reader.md R140. -/
theorem rxUnit_cases {i : CycleIn} {s t : State} (h : runUnit (.rx (s.rxSel i)) s = .next t) :
    (i.chanFail = true ∧ execRxFail s = .next t) ∨
    (i.chanFail = false ∧ s.rx.rstate = 4 ∧ t = s) ∨
    (i.chanFail = false ∧ s.rx.rstate ≠ 4 ∧ s.ctrl.rxEn = false ∧ t = s.hunt) ∨
    (i.chanFail = false ∧ s.rx.rstate ≠ 4 ∧ s.ctrl.rxEn = true ∧ i.rxValid = false ∧ t = s) ∨
    (i.chanFail = false ∧ s.ctrl.rxEn = true ∧ i.rxValid = true ∧
      ((s.rx.rstate = 0 ∧ execRxHunt i.rxData s = .next t) ∨ (s.rx.rstate = 1 ∧ execRxHdr i.rxData s = .next t) ∨
       (s.rx.rstate = 2 ∧ execRxPay i.rxData s = .next t) ∨
       (s.rx.rstate = 3 ∧ s.rx.kcnt = 0 ∧ execRxCk0 i.rxData s = .next t) ∨
       (s.rx.rstate = 3 ∧ s.rx.kcnt = 1 ∧ execRxCk1 i.rxData s = .next t))) := by
  obtain ⟨op, hd, he⟩ := runUnit_eq_next h
  rcases decodeRx_cases (x := s.rxSel i) hd with
    ⟨hc, rfl⟩ | ⟨hc, h4, rfl⟩ | ⟨hc, h4, hr, rfl⟩ | ⟨hc, h4, hr, hv, rfl⟩ |
    ⟨hc, hr, hv, ⟨hs, rfl⟩ | ⟨hs, rfl⟩ | ⟨hs, rfl⟩ | ⟨hs, hk, rfl⟩ | ⟨hs, hk, rfl⟩⟩
  · exact .inl ⟨hc, he⟩
  · cases he
    exact .inr (.inl ⟨hc, h4, rfl⟩)
  · cases he
    exact .inr (.inr (.inl ⟨hc, h4, hr, rfl⟩))
  · cases he
    exact .inr (.inr (.inr (.inl ⟨hc, h4, hr, hv, rfl⟩)))
  · exact .inr (.inr (.inr (.inr ⟨hc, hr, hv, .inl ⟨hs, he⟩⟩)))
  · exact .inr (.inr (.inr (.inr ⟨hc, hr, hv, .inr (.inl ⟨hs, he⟩)⟩)))
  · exact .inr (.inr (.inr (.inr ⟨hc, hr, hv, .inr (.inr (.inl ⟨hs, he⟩))⟩)))
  · exact .inr (.inr (.inr (.inr ⟨hc, hr, hv, .inr (.inr (.inr (.inl ⟨hs, hk, he⟩)))⟩)))
  · exact .inr (.inr (.inr (.inr ⟨hc, hr, hv, .inr (.inr (.inr (.inr ⟨hs, hk, he⟩)))⟩)))

/-- A byte in HUNT: the window shifts, and either a match synchronizes or nothing else of the FrameReader changes. -/
theorem execRxHunt_eq_next {b : Byte} {s t : State} (h : execRxHunt b s = .next t) :
    ((fillUp s.rx.wfill = 4 ∧ shiftIn s.rx.win b = s.cfg.preamble) ∧
      t = { s with rx := { s.rx with
        win := shiftIn s.rx.win b, wfill := fillUp s.rx.wfill, rstate := rHdr, hcnt := 0, sum := 0 } }) ∨
    (¬ (fillUp s.rx.wfill = 4 ∧ shiftIn s.rx.win b = s.cfg.preamble) ∧
      t = { s with rx := { s.rx with win := shiftIn s.rx.win b, wfill := fillUp s.rx.wfill }
                   events := s.events ++ [.framingError] }) := by
  unfold execRxHunt at h
  dsimp only at h
  split at h
  · rename_i hm
    cases h
    exact .inl ⟨hm, rfl⟩
  · rename_i hm
    cases h
    exact .inr ⟨hm, rfl⟩

/-- A payload byte: the slot exists, and RSTATE is CK exactly after the last one. -/
theorem execRxPay_eq_next {b : Byte} {s t : State} (h : execRxPay b s = .next t) :
    s.rx.pcnt.toNat < 255 ∧
    t = { s with rx := { s.rx with
      pbuf := s.rx.pbuf.write s.rx.pcnt.toNat b, sum := addByte s.rx.sum b, pcnt := s.rx.pcnt + 1
      rstate := if s.rx.pcnt.toNat + 1 = s.rx.fLen.toNat then rCk else s.rx.rstate
      kcnt := if s.rx.pcnt.toNat + 1 = s.rx.fLen.toNat then 0 else s.rx.kcnt } } := by
  have hb := s.rx.pcnt.isLt
  unfold execRxPay at h
  dsimp only at h
  split at h
  · cases h
  · split at h
    · rename_i hl
      cases h
      refine ⟨by omega, ?_⟩
      rw [if_pos hl, if_pos hl]
    · rename_i hl
      cases h
      refine ⟨by omega, ?_⟩
      rw [if_neg hl, if_neg hl]

/-- The last byte of a frame: the completion, then the hunt for the next preamble. -/
theorem execRxCk1_eq_next {b : Byte} {s t : State} (h : execRxCk1 b s = .next t) :
    ∃ e, completeFrame (s.rx.frame b) s = .next e ∧ t = e.hunt := by
  obtain ⟨e, he, hk⟩ := andThen_eq_next h
  exact ⟨e, he, by cases hk; rfl⟩

/-- A cycle of state TX without timeout that does not end the frame. -/
theorem execDspTx_eq_next {ready : Bool} {s t : State} (hl : (ready && s.lastByte) = false)
    (h : execDspTx ready s = .next t) :
    ∃ b, s.txByte s.dsp.cFeat s.dsp.cSt = some b ∧
      t = { s.offer b with
        dsp := { s.dsp with txidx := if ready then s.dsp.txidx + 1 else s.dsp.txidx, elapsed := s.tick } } := by
  unfold execDspTx at h
  rw [hl] at h
  obtain ⟨o, ho, hk⟩ := andThen_eq_next h
  obtain ⟨b, hb, rfl⟩ := execCmdFrame_eq_next ho
  exact ⟨b, hb, by cases hk; rfl⟩

/-- The cycle that ends the command frame. -/
theorem execDspTxEnd_eq_next {s t : State} (h : execDspTxEnd s = .next t) :
    ∃ b, s.txByte s.dsp.cFeat s.dsp.cSt = some b ∧
      t = { s.offer b with
        dsp := { s.dsp with txidx := 0, dstate := dWait, elapsed := s.tick }
        store := { s.store with fresh := false } } := by
  obtain ⟨o, ho, hk⟩ := andThen_eq_next h
  obtain ⟨b, hb, rfl⟩ := execCmdFrame_eq_next ho
  exact ⟨b, hb, by cases hk; rfl⟩

/-- The command frame has a byte at every index up to 11, for every feature. -/
theorem txByte_isSome {s : State} {feat : BitVec 4} {st : Bool} (hf : feat.toNat < 9) (hx : s.dsp.txidx.toNat ≤ 11) :
    ∃ b, s.txByte feat st = some b := by
  have hl : feat.toNat < s.cfg.featureId.toList.length := by simpa using hf
  unfold State.txByte cmdByte cmdFrameOf Params.featureByte
  rw [List.getElem?_eq_getElem hl]
  refine ⟨_, List.getElem?_eq_getElem ?_⟩
  simp only [Frame.bytes, Frame.summed, Quad.toList, List.length_append, List.length_cons, List.length_nil]
  omega

/-- What the operations of a completed frame leave alone. -/
theorem completeFrame_frame {f : Frame} {s t : State} (h : completeFrame f s = .next t) :
    t = { s with store := t.store, diag := t.diag, events := t.events } := by
  rcases completeFrame_eq_next h with ⟨-, ⟨-, rfl⟩ | ⟨-, rfl⟩ | ⟨-, rfl⟩⟩ | ⟨-, rfl⟩ <;> rfl

/-- What the FrameReader's unit leaves alone: all but its own state, the store, the diagnostics, LINK_FAIL and the
events. -/
theorem rxUnit_frame {i : CycleIn} {s t : State} (h : runUnit (.rx (s.rxSel i)) s = .next t) :
    t = { s with rx := t.rx, store := t.store, diag := t.diag, events := t.events
                 err := { s.err with linkFail := t.err.linkFail } } := by
  rcases rxUnit_cases h with ⟨-, h⟩ | ⟨-, -, rfl⟩ | ⟨-, -, -, rfl⟩ | ⟨-, -, -, -, rfl⟩ |
    ⟨-, -, -, ⟨-, h⟩ | ⟨-, h⟩ | ⟨-, h⟩ | ⟨-, -, h⟩ | ⟨-, -, h⟩⟩
  · cases h
    rfl
  · rfl
  · rfl
  · rfl
  · rcases execRxHunt_eq_next h with ⟨-, rfl⟩ | ⟨-, rfl⟩ <;> rfl
  · unfold execRxHdr at h
    dsimp only at h
    split at h <;> cases h <;> rfl
  · rw [(execRxPay_eq_next h).2]
  · cases h
    rfl
  · obtain ⟨e, he, rfl⟩ := execRxCk1_eq_next h
    rw [completeFrame_frame he]
    rfl

/-- What the dispatcher's unit leaves alone: all but its own state, the completion flags, FRESH, the transmit port and
the events. -/
theorem dspUnit_frame {i : CycleIn} {s t : State} (h : runUnit (.dsp (s.dspSel i)) s = .next t) :
    t = { s with dsp := t.dsp, res := t.res, events := t.events
                 out := { s.out with txValid := t.out.txValid, txData := t.out.txData }
                 store := { s.store with fresh := t.store.fresh } } := by
  rcases dspUnit_cases h with ⟨st, feat, -, -, rfl⟩ | ⟨-, -, rfl⟩ | ⟨-, -, h⟩ | ⟨-, -, -, -, h⟩ | ⟨-, -, hl, h⟩ |
    ⟨-, -, -, h⟩ | ⟨-, -, -, h⟩ | ⟨-, -, -, -, -, h⟩ | ⟨-, -, -, -, -, h⟩ | ⟨-, -, -, h⟩
  · rfl
  · rfl
  · cases h
    rfl
  · obtain ⟨b, -, rfl⟩ := execDspTxEnd_eq_next h
    rfl
  · obtain ⟨b, -, rfl⟩ := execDspTx_eq_next hl h
    rfl
  · cases h
    rfl
  · cases h
    rfl
  · cases h
    rfl
  · cases h
    rfl
  · cases h
    rfl

end Sys2Proof.Machine
end

