-- ==== Sys2Proof/Laws/PerInstr.lean ====
section
/-! SUPPORT. Facts stated of every operation as syntax, one lemma per constructor of `Instr`. -/
namespace Sys2Proof.Laws

/-- The six formats of spec/opcode_table.json. -/
inductive Format where
  | hostCmd16 | hostAddr5 | rxSel4 | busFrame | busFrameTx | dspSel2
  deriving DecidableEq, Repr

/-- The format of a code. -/
def formatOf : Code → Format
  | .cmd _ => .hostCmd16
  | .host _ _ _ => .hostAddr5
  | .rx _ => .rxSel4
  | .frame _ => .busFrame
  | .tx _ _ => .busFrameTx
  | .dsp _ => .dspSel2

/-- The format of the row that an operation is. -/
def rowFormat : Instr → Format
  | .nop => .hostCmd16
  | .setf _ _ => .hostCmd16
  | .clr _ _ _ => .hostCmd16
  | .illegalNop _ => .hostCmd16
  | .illegalSetf _ _ _ => .hostCmd16
  | .illegalClr _ _ => .hostCmd16
  | .illegalOp3 _ => .hostCmd16
  | .illegalOp4to7 _ => .hostCmd16
  | .illegalOp8toF _ => .hostCmd16
  | .regRead _ => .hostAddr5
  | .regWriteCtrl _ => .hostAddr5
  | .regWriteCmd _ => .hostAddr5
  | .regWriteOther _ _ => .hostAddr5
  | .rxFail => .rxSel4
  | .rxDead => .rxSel4
  | .rxOff => .rxSel4
  | .rxNone => .rxSel4
  | .rxHunt _ => .rxSel4
  | .rxHdr _ => .rxSel4
  | .rxPay _ => .rxSel4
  | .rxCk0 _ => .rxSel4
  | .rxCk1 _ => .rxSel4
  | .frameTelem _ => .busFrame
  | .frameStatus _ => .busFrame
  | .frameSkip _ => .busFrame
  | .frameBadck _ => .busFrame
  | .cmdFrame _ _ => .busFrameTx
  | .dspIdle => .dspSel2
  | .dspStart _ _ => .dspSel2
  | .dspTx _ => .dspSel2
  | .dspTxEnd => .dspSel2
  | .dspWallTimeout _ => .dspSel2
  | .dspSuccess => .dspSel2
  | .dspRetry => .dspSel2
  | .dspExhaust => .dspSel2
  | .dspWait => .dspSel2

/-- The encoder gives a code of the format of the operation's row in the opcode table. -/
def EncodesInItsFormat.Statement (i : Instr) : Prop := ∀ c : Params, formatOf (encode c i) = rowFormat i

namespace EncodesInItsFormat

theorem nop : Statement .nop := fun _ => rfl
theorem setf (st : Bool) (feat : BitVec 4) : Statement (.setf st feat) := fun _ => rfl
theorem clr (cnt : Bool) (err : Bool) (done : Bool) : Statement (.clr cnt err done) := fun _ => rfl
theorem illegalNop (rsv : BitVec 12) : Statement (.illegalNop rsv) := fun _ => rfl
theorem illegalSetf (rsv : BitVec 7) (st : Bool) (feat : BitVec 4) :
    Statement (.illegalSetf rsv st feat) := fun _ => rfl
theorem illegalClr (rsv : BitVec 9) (low : BitVec 3) : Statement (.illegalClr rsv low) := fun _ => rfl
theorem illegalOp3 (rest : BitVec 12) : Statement (.illegalOp3 rest) := fun _ => rfl
theorem illegalOp4to7 (rest : BitVec 14) : Statement (.illegalOp4to7 rest) := fun _ => rfl
theorem illegalOp8toF (rest : BitVec 15) : Statement (.illegalOp8toF rest) := fun _ => rfl
theorem regRead (addr : BitVec 5) : Statement (.regRead addr) := fun _ => rfl
theorem regWriteCtrl (v : Half) : Statement (.regWriteCtrl v) := fun _ => rfl
theorem regWriteCmd (w : Half) : Statement (.regWriteCmd w) := fun _ => rfl
theorem regWriteOther (addr : BitVec 5) (v : Half) : Statement (.regWriteOther addr v) := fun _ => rfl
theorem rxFail : Statement .rxFail := fun _ => rfl
theorem rxDead : Statement .rxDead := fun _ => rfl
theorem rxOff : Statement .rxOff := fun _ => rfl
theorem rxNone : Statement .rxNone := fun _ => rfl
theorem rxHunt (b : Byte) : Statement (.rxHunt b) := fun _ => rfl
theorem rxHdr (b : Byte) : Statement (.rxHdr b) := fun _ => rfl
theorem rxPay (b : Byte) : Statement (.rxPay b) := fun _ => rfl
theorem rxCk0 (b : Byte) : Statement (.rxCk0 b) := fun _ => rfl
theorem rxCk1 (b : Byte) : Statement (.rxCk1 b) := fun _ => rfl
theorem frameTelem (f : Frame) : Statement (.frameTelem f) := fun _ => rfl
theorem frameStatus (f : Frame) : Statement (.frameStatus f) := fun _ => rfl
theorem frameSkip (f : Frame) : Statement (.frameSkip f) := fun _ => rfl
theorem frameBadck (f : Frame) : Statement (.frameBadck f) := fun _ => rfl
theorem cmdFrame (feat : BitVec 4) (st : Bool) : Statement (.cmdFrame feat st) := fun _ => rfl
theorem dspIdle : Statement .dspIdle := fun _ => rfl
theorem dspStart (st : Bool) (feat : BitVec 4) : Statement (.dspStart st feat) := fun _ => rfl
theorem dspTx (ready : Bool) : Statement (.dspTx ready) := fun _ => rfl
theorem dspTxEnd : Statement .dspTxEnd := fun _ => rfl
theorem dspWallTimeout (dstate : BitVec 2) : Statement (.dspWallTimeout dstate) := fun _ => rfl
theorem dspSuccess : Statement .dspSuccess := fun _ => rfl
theorem dspRetry : Statement .dspRetry := fun _ => rfl
theorem dspExhaust : Statement .dspExhaust := fun _ => rfl
theorem dspWait : Statement .dspWait := fun _ => rfl

end EncodesInItsFormat

end Sys2Proof.Laws
end

