-- ==== Sys2Proof/Laws/Reader.lean ====
section
/-! SUPPORT. The dispatcher and the host do not depend on FrameReader state: each unit commutes with replacing it. -/
namespace Sys2Proof.Machine

/-- The same outcome with another FrameReader state. -/
def withReader (r : Reader) (o : Host.Outcome State Fault Refusal) : Host.Outcome State Fault Refusal :=
  andThen o fun t => .next { t with rx := r }

theorem execCmdFrame_withReader (feat : BitVec 4) (st : Bool) (r : Reader) (s : State) :
    execCmdFrame feat st { s with rx := r } = withReader r (execCmdFrame feat st s) := by
  show (match s.txByte feat st with | some b => _ | none => _) =
    withReader r (match s.txByte feat st with | some b => _ | none => _)
  split <;> rfl

theorem execDspTxEnd_withReader (r : Reader) (s : State) :
    execDspTxEnd { s with rx := r } = withReader r (execDspTxEnd s) := by
  show andThen (execCmdFrame s.dsp.cFeat s.dsp.cSt { s with rx := r }) _ = withReader r (andThen _ _)
  rw [execCmdFrame_withReader]
  cases execCmdFrame s.dsp.cFeat s.dsp.cSt s <;> rfl

theorem execDspTx_withReader (ready : Bool) (r : Reader) (s : State) :
    execDspTx ready { s with rx := r } = withReader r (execDspTx ready s) := by
  by_cases h : (ready && s.lastByte) = true
  · have h' : (ready && ({ s with rx := r } : State).lastByte) = true := h
    rw [execDspTx, execDspTx, if_pos h, if_pos h', execDspTxEnd_withReader]
  · have h' : ¬ (ready && ({ s with rx := r } : State).lastByte) = true := h
    rw [execDspTx, execDspTx, if_neg h, if_neg h']
    show andThen (execCmdFrame s.dsp.cFeat s.dsp.cSt { s with rx := r }) _ = withReader r (andThen _ _)
    rw [execCmdFrame_withReader]
    cases execCmdFrame s.dsp.cFeat s.dsp.cSt s <;> rfl

/-- The dispatcher's unit neither reads nor writes FrameReader state (43_command_dispatcher.md R245). -/
theorem dspUnit_withReader (x : DspSel) (r : Reader) (s : State) :
    runUnit (.dsp x) { s with rx := r } = withReader r (runUnit (.dsp x) s) := by
  rcases hd : decodeDsp x with e | op
  · have : ∀ s : State, runUnit (.dsp x) s = .fault .unreachableEncoding := fun s => by
      show (match decodeDsp x with | .ok i => exec i s | .error _ => _) = _
      rw [hd]
    rw [this, this]
    rfl
  · have : ∀ s : State, runUnit (.dsp x) s = exec op s := fun s => runUnit_of_decode hd
    rw [this, this]
    rcases decodeDsp_cases hd with
      ⟨_, _, -, -, rfl⟩ | ⟨-, -, rfl⟩ | ⟨-, -, rfl⟩ | ⟨-, -, -, -, rfl⟩ | ⟨-, -, -, rfl⟩ | ⟨-, -, -, rfl⟩ |
      ⟨-, -, -, rfl⟩ | ⟨-, -, -, -, -, rfl⟩ | ⟨-, -, -, -, -, rfl⟩ | ⟨-, -, -, rfl⟩
    · rfl
    · rfl
    · rfl
    · exact execDspTxEnd_withReader r s
    · exact execDspTx_withReader _ r s
    · rfl
    · rfl
    · rfl
    · rfl
    · rfl

/-- What the host's unit writes does not depend on FrameReader state, but for the value a read shows. -/
theorem hostUnit_withReader {i : CycleIn} {r : Reader} {s h h' : State} (hh : runUnit (State.hostCode i) s = .next h)
    (hr : runUnit (State.hostCode i) { s with rx := r } = .next h') :
    h' = { h with rx := r, out := h'.out } := by
  rw [hostUnit_eq] at hh hr
  split at hh
  · rename_i hw
    rw [if_pos hw] at hr
    split at hh
    · rename_i ha
      rw [if_pos ha] at hr
      cases hh
      cases hr
      rfl
    · rename_i ha
      rw [if_neg ha] at hr
      split at hh
      · rename_i hb
        rw [if_pos hb] at hr
        have hc : execRegWriteCmd i.hWdata { s with rx := r } = withReader r (execRegWriteCmd i.hWdata s) := by
          unfold execRegWriteCmd
          split
          · rfl
          · split
            · rfl
            · split
              · unfold execSetf
                dsimp only
                split <;> rfl
              · rfl
        rw [hc, hh] at hr
        cases hr
        rfl
      · rename_i hb
        rw [if_neg hb] at hr
        cases hh
        cases hr
        rfl
  · rename_i hw
    rw [if_neg hw] at hr
    cases hh
    cases hr
    rfl

end Sys2Proof.Machine
end

