-- ==== Sys2Proof/Tests/Slice0.lean ====
section
/-! SUPPORT. Tests: ill-formed terms, decoding of words written out from the spec, one operation or one cycle at a time
with the values of spec/95_test_vectors.md, and for each obligation with hypotheses values that meet them. -/
namespace Sys2Proof.Tests

open Sys2Proof Sys2Proof.Machine

/-- The state after reset, for TCFG. -/
def s0 : State := State.powerOn Config.tcfg []

/-- What `f` shows of the next state, if there is one. -/
def look {α : Type} (o : Host.Outcome State Fault Refusal) (f : State → α) : Option α :=
  match o with
  | .next t => some (f t)
  | .fault _ => none
  | .refused _ => none

/-- The reason of a fault. -/
def faultOf (o : Host.Outcome State Fault Refusal) : Option Fault :=
  match o with
  | .next _ => none
  | .fault r => some r
  | .refused _ => none

/-- The reason of a refusal. -/
def refusalOf (o : Host.Outcome State Fault Refusal) : Option Refusal :=
  match o with
  | .next _ => none
  | .fault _ => none
  | .refused r => some r

/-- A decode that names the operation. -/
def dec (c : Code) : Option Instr :=
  match decode Config.tcfg c with
  | .ok i => some i
  | .error _ => none

/-- CMDFRAME(pool, on), vector CK-1. -/
def fPool : Frame := ⟨0x20, 0x10, 0x86, 0x02, [0x06, 0x01], 0x00, 0xBF⟩

/-- The STATUS frame of vector DEC-1. -/
def fStat : Frame := ⟨0x0F, 0x10, 0x02, 0x09, [0x0A, 0x1E, 0xA1, 0, 0, 0, 0, 0, 0], 0x00, 0xF3⟩

/-- The telemetry frame TEL. -/
def fTel : Frame :=
  ⟨0x10, 0x60, 0x07, 0x0F, [0, 0, 0, 0x01, 0xF4, 0x0B, 0xB8, 0, 0, 0, 0, 0, 0, 0, 0], 0x02, 0x3E⟩

/-- The FrameReader before the last byte of `fStat`. -/
def rxStat : Reader :=
  { Reader.reset with
    rstate := 3, kcnt := 1, fDst := 0x0F, fSrc := 0x10, fCmd := 0x02, fLen := 9, pcnt := 9, hcnt := 3, ckh := 0x00
    sum := 0x00F3, wfill := 4, pbuf := [(0, 0x0A), (1, 0x1E), (2, 0xA1)] }

/-- The FrameReader before the last byte of `fPool`. -/
def rxPool : Reader :=
  { Reader.reset with
    rstate := 3, kcnt := 1, fDst := 0x20, fSrc := 0x10, fCmd := 0x86, fLen := 2, pcnt := 2, hcnt := 3, ckh := 0x00
    sum := 0x00BF, wfill := 4, pbuf := [(0, 0x06), (1, 0x01)] }

/-- A dispatcher that is sending `pool, on` or waiting for it. -/
def dspAt (dstate : BitVec 2) (txidx att : BitVec 4) (elapsed : Nat) : Dispatcher :=
  { dstate := dstate, cFeat := 5, cSt := true, att := att, txidx := txidx, elapsed := elapsed }

/-- Inputs of a cycle with a received byte. -/
def rxIn (b : Byte) : CycleIn := { CycleIn.quiet with rxValid := true, rxData := b }

/-- Inputs of a cycle with a register write. -/
def wrIn (a : BitVec 5) (v : Half) : CycleIn := { CycleIn.quiet with hWe := true, hAddr := a, hWdata := v }

/-! ### Ill-formed terms, one for each check -/

theorem test_wf_refuses_commands :
    (Instr.setf true 9).wf Config.tcfg = false ∧ (Instr.illegalNop 0).wf Config.tcfg = false ∧
    (Instr.illegalSetf 0 true 8).wf Config.tcfg = false ∧ (Instr.illegalClr 0 7).wf Config.tcfg = false ∧
    (Instr.dspStart true 9).wf Config.tcfg = false ∧ (Instr.cmdFrame 9 true).wf Config.tcfg = false := by decide

theorem test_wf_refuses_accesses_and_selectors :
    (Instr.regWriteOther 0 0).wf Config.tcfg = false ∧ (Instr.regWriteOther 1 0).wf Config.tcfg = false ∧
    (Instr.dspWallTimeout 0).wf Config.tcfg = false ∧ (Instr.dspWallTimeout 3).wf Config.tcfg = false := by decide

theorem test_wf_refuses_frames :
    (Instr.frameTelem fStat).wf Config.tcfg = false ∧ (Instr.frameStatus fTel).wf Config.tcfg = false ∧
    (Instr.frameSkip fStat).wf Config.tcfg = false ∧ (Instr.frameBadck fStat).wf Config.tcfg = false ∧
    (Instr.frameStatus { fStat with ckl := 0xF2 }).wf Config.tcfg = false ∧
    (Instr.frameStatus { fStat with payload := [] }).wf Config.tcfg = false ∧
    (Instr.frameSkip { fPool with ckh := 1 }).wf Config.tcfg = false ∧
    (Instr.frameSkip { fPool with payload := [0x07] }).wf Config.tcfg = false ∧
    (Instr.frameTelem { fTel with ckl := 0 }).wf Config.tcfg = false ∧
    (Instr.frameTelem { fTel with payload := [] }).wf Config.tcfg = false ∧
    (Instr.frameBadck { fPool with ckl := 0xBE, payload := [] }).wf Config.tcfg = false := by decide

/-- A configuration that breaks 00_scope.md R8 is refused. -/
theorem test_config_refused :
    refusalOf (step { s0 with cfg := { Config.tcfg with offEq1 := 9 }, tape := [CycleIn.quiet] }) =
      some .badConfig := by decide

/-! ### Decoding, every constructor; the words from 30_encoding.md R112 to R116, the frames from
spec/95_test_vectors.md, the selectors from 40_frame_reader.md R140 and 43_command_dispatcher.md R230 -/

theorem test_decode_host_cmd16 :
    dec (.cmd 0b0000000000000000) = some .nop ∧ dec (.cmd 0b0001000000010101) = some (.setf true 5) ∧
    dec (.cmd 0b0001000000001000) = some (.setf false 8) ∧
    dec (.cmd 0b0010000000000001) = some (.clr false false true) ∧
    dec (.cmd 0b0010000000000110) = some (.clr true true false) ∧
    dec (.cmd 0b0000100000000001) = some (.illegalNop 0b100000000001) ∧
    dec (.cmd 0b0001000000111111) = some (.illegalSetf 1 true 15) ∧
    dec (.cmd 0b0001000000001001) = some (.illegalSetf 0 false 9) ∧
    dec (.cmd 0b0010000000001010) = some (.illegalClr 1 2) ∧
    dec (.cmd 0b0011000000000001) = some (.illegalOp3 1) ∧
    dec (.cmd 0b0111000000000001) = some (.illegalOp4to7 0b11000000000001) ∧
    dec (.cmd 0b1111000000000001) = some (.illegalOp8toF 0b111000000000001) := by decide

theorem test_decode_host_addr5 :
    dec (.host false 0x16 0) = some (.regRead 0x16) ∧ dec (.host true 0x00 7) = some (.regWriteCtrl 7) ∧
    dec (.host true 0x01 0x2003) = some (.regWriteCmd 0x2003) ∧
    dec (.host true 0x1F 9) = some (.regWriteOther 0x1F 9) := by decide

theorem test_decode_rx_sel4 :
    dec (.rx ⟨true, true, true, 4, 0, 1⟩) = some .rxFail ∧ dec (.rx ⟨false, false, true, 4, 0, 1⟩) = some .rxDead ∧
    dec (.rx ⟨false, false, true, 2, 0, 1⟩) = some .rxOff ∧ dec (.rx ⟨false, true, false, 2, 0, 1⟩) = some .rxNone ∧
    dec (.rx ⟨false, true, true, 0, 1, 7⟩) = some (.rxHunt 7) ∧
    dec (.rx ⟨false, true, true, 1, 1, 7⟩) = some (.rxHdr 7) ∧
    dec (.rx ⟨false, true, true, 2, 0, 7⟩) = some (.rxPay 7) ∧
    dec (.rx ⟨false, true, true, 3, 0, 7⟩) = some (.rxCk0 7) ∧
    dec (.rx ⟨false, true, true, 3, 1, 7⟩) = some (.rxCk1 7) ∧ dec (.rx ⟨false, true, true, 5, 0, 7⟩) = none := by
  decide

theorem test_decode_bus_frame :
    dec (.frame [0xFF, 0x00, 0xFF, 0xA5, 0x10, 0x60, 0x07, 0x0F, 0, 0, 0, 0x01, 0xF4, 0x0B, 0xB8, 0, 0, 0, 0, 0, 0, 0,
      0, 0x02, 0x3E]) = some (.frameTelem fTel) ∧
    dec (.frame [0xFF, 0x00, 0xFF, 0xA5, 0x0F, 0x10, 0x02, 0x09, 0x0A, 0x1E, 0xA1, 0, 0, 0, 0, 0, 0, 0x00, 0xF3]) =
      some (.frameStatus fStat) ∧
    dec (.frame [0xFF, 0x00, 0xFF, 0xA5, 0x20, 0x10, 0x86, 0x02, 0x06, 0x01, 0x00, 0xBF]) = some (.frameSkip fPool) ∧
    dec (.frame [0xFF, 0x00, 0xFF, 0xA5, 0x20, 0x10, 0x86, 0x02, 0x06, 0x01, 0x01, 0xBF]) =
      some (.frameBadck { fPool with ckh := 1 }) ∧
    dec (.frame [0xFF, 0x00, 0xFF, 0xA5, 0x20, 0x10, 0x86, 0x03, 0x06, 0x01, 0x01, 0xBF]) = none := by decide

theorem test_decode_tx_and_dsp_sel2 :
    dec (.tx 8 true) = some (.cmdFrame 8 true) ∧ dec (.tx 9 true) = none ∧
    dec (.dsp ⟨0, none, true, true, true, true, true, true⟩) = some .dspIdle ∧
    dec (.dsp ⟨0, some (true, 8), true, true, true, true, true, true⟩) = some (.dspStart true 8) ∧
    dec (.dsp ⟨1, none, false, true, false, true, true, true⟩) = some (.dspTx true) ∧
    dec (.dsp ⟨1, none, false, true, true, true, true, true⟩) = some .dspTxEnd ∧
    dec (.dsp ⟨1, none, true, true, true, true, true, true⟩) = some (.dspWallTimeout 1) ∧
    dec (.dsp ⟨2, none, true, true, true, false, true, true⟩) = some (.dspWallTimeout 2) ∧
    dec (.dsp ⟨2, none, true, true, true, true, true, true⟩) = some .dspSuccess ∧
    dec (.dsp ⟨2, none, false, true, true, true, false, true⟩) = some .dspRetry ∧
    dec (.dsp ⟨2, none, false, true, true, true, false, false⟩) = some .dspExhaust ∧
    dec (.dsp ⟨2, none, false, true, true, false, true, true⟩) = some .dspWait ∧
    dec (.dsp ⟨3, none, false, true, true, false, true, true⟩) = none := by decide

/-- Words of the opcode table, by their numbers (log 5). -/
theorem test_decode_table_words :
    decodeTableWord 16 0x1015 = some (.setf true 5) ∧ decodeTableWord 8 0 = some (.regWriteCtrl 0) ∧
    decodeTableWord 8 1 = some (.regWriteCmd 0) ∧ decodeTableWord 8 7 = some (.rxCk1 0) ∧
    decodeTableWord 8 8 = some .rxDead ∧ decodeTableWord 8 31 = some (.regRead 31) ∧ decodeTableWord 8 32 = none := by
  decide

/-! ### Host commands and accesses: vectors HOST-1 to HOST-9, DISP-5 -/

theorem test_nop : look (exec .nop s0) id = some s0 := by decide

theorem test_setf_starts : look (exec (.setf true 5) s0) (fun t => t.regRead 0x02) = some 0x1521 := by decide

theorem test_setf_overruns :
    look (exec (.setf true 0) { s0 with dsp := dspAt 1 3 1 3 }) (fun t => (t.regRead 0x02, t.regRead 0x03)) =
      some (0x1521, 0x0002) := by decide

theorem test_clr :
    look (exec (.clr true true true) { s0 with
        err := ⟨true, true, true⟩, res := ⟨true, true, true, true⟩, diag := { s0.diag with cntOk := 3, ckRx := 4 } })
      (fun t => (t.regRead 0x02, t.regRead 0x03, t.regRead 0x11, t.regRead 0x0F)) = some (0, 4, 0, 4) := by decide

theorem test_illegal_rows :
    look (exec (.illegalNop 1) s0) (fun t => t.regRead 3) = some 1 ∧
    look (exec (.illegalSetf 1 true 0) { s0 with dsp := dspAt 1 0 1 0 }) (fun t => t.regRead 3) = some 1 ∧
    look (exec (.illegalClr 1 7) s0) (fun t => t.regRead 3) = some 1 ∧
    look (exec (.illegalOp3 0) s0) (fun t => t.regRead 3) = some 1 ∧
    look (exec (.illegalOp4to7 0) s0) (fun t => t.regRead 3) = some 1 ∧
    look (exec (.illegalOp8toF 0) s0) (fun t => t.regRead 3) = some 1 := by decide

theorem test_reg_read : look (exec (.regRead 0) s0) (fun t => t.out.hRdata) = some 1 := by decide

theorem test_reg_write_ctrl : look (exec (.regWriteCtrl 0xFFFF) s0) (fun t => t.regRead 0) = some 7 := by decide

theorem test_reg_write_cmd :
    look (exec (.regWriteCmd 0x1018) s0) (fun t => (t.regRead 2, t.regRead 3)) = some (0x1821, 0) ∧
    look (exec (.regWriteCmd 0x1009) s0) (fun t => (t.regRead 2, t.regRead 3)) = some (0, 1) := by decide

theorem test_reg_write_other : look (exec (.regWriteOther 0x13 0x1234) s0) (fun t => t.regRead 0x13) = some 0 := by
  decide

/-! ### FrameReader: vectors FR-1 to FR-10, CK-2 -/

theorem test_rx_fail : look (exec .rxFail s0) (fun t => (t.regRead 3, t.regRead 4)) = some (4, 4) := by decide

theorem test_rx_dead : look (exec .rxDead s0) id = some s0 := by decide

theorem test_rx_off :
    look (exec .rxOff { s0 with rx := rxPool }) (fun t => (t.rx.rstate, t.rx.wfill, t.rx.kcnt)) = some (0, 0, 0) := by
  decide

theorem test_rx_none : look (exec .rxNone { s0 with rx := rxPool }) (fun t => t.rx) = some rxPool := by decide

theorem test_rx_hunt_synchronizes :
    look (exec (.rxHunt 0xA5) { s0 with rx := { s0.rx with win := ⟨0, 0xFF, 0, 0xFF⟩, wfill := 3, sum := 9 } })
      (fun t => (t.rx.rstate, t.rx.wfill, t.rx.sum)) = some (1, 4, 0) := by decide

theorem test_rx_hunt_counts_bytes_since_the_clear :
    look (exec (.rxHunt 0xA5) { s0 with rx := { s0.rx with win := ⟨0, 0xFF, 0, 0xFF⟩, wfill := 2 } })
      (fun t => (t.rx.rstate, t.rx.wfill, t.events)) = some (0, 3, [.framingError]) := by decide

theorem test_rx_hdr_len_zero :
    look (exec (.rxHdr 0) { s0 with rx := { s0.rx with rstate := 1, hcnt := 3, sum := 0x20 } })
      (fun t => (t.rx.rstate, t.rx.sum, t.rx.fLen)) = some (3, 0x20, 0) := by decide

theorem test_rx_hdr_source :
    look (exec (.rxHdr 0x10) { s0 with rx := { s0.rx with rstate := 1, hcnt := 1, sum := 0xFFF8 } })
      (fun t => (t.rx.hcnt, t.rx.sum, t.rx.fSrc)) = some (2, 8, 0x10) := by decide

theorem test_rx_pay_last :
    look (exec (.rxPay 1) { s0 with rx := { rxPool with rstate := 2, pcnt := 1, sum := 0xBE, pbuf := [(0, 6)] } })
      (fun t => (t.rx.rstate, t.rx.sum, t.rx.pbuf)) = some (3, 0xBF, [(0, 6), (1, 1)]) := by decide

theorem test_rx_pay_no_slot :
    faultOf (exec (.rxPay 1) { s0 with rx := { s0.rx with pcnt := 255 } }) = some .noPayloadSlot := by decide

theorem test_rx_ck0 :
    look (exec (.rxCk0 0x12) { s0 with rx := rxPool }) (fun t => (t.rx.ckh, t.rx.kcnt, t.rx.sum)) =
      some (0x12, 1, 0xBF) := by decide

theorem test_rx_ck1_status :
    look (exec (.rxCk1 0xF3) { s0 with rx := rxStat, now := 18 })
      (fun t => (t.regRead 5, t.regRead 6, t.regRead 7, t.regRead 0x0C, t.regRead 4)) =
      some (0x0053, 0x00A1, 0x0A1E, 18, 8) := by decide

theorem test_rx_ck1_rejects :
    look (exec (.rxCk1 0xBE) { s0 with rx := rxPool })
      (fun t => (t.regRead 0x0F, t.regRead 0x10, t.regRead 0x12, t.regRead 0x15, t.regRead 4)) =
      some (0xBE, 0xBF, 1, 0, 0) := by decide

/-! ### Frames: vectors DEC-1, DEC-2, DEC-5, CK-3 -/

theorem test_frame_telem :
    look (exec (.frameTelem fTel) s0) (fun t => (t.regRead 5, t.regRead 0x0A, t.regRead 0x0B, t.regRead 0x0E)) =
      some (0x20, 500, 3000, 1) := by decide

theorem test_frame_status :
    look (exec (.frameStatus fStat) s0) (fun t => (t.regRead 5, t.regRead 6, t.regRead 9, t.regRead 8)) =
      some (0x53, 0xA1, 0x100F, 0) := by decide

theorem test_frame_skip :
    look (exec (.frameSkip fPool) s0) (fun t => (t.regRead 0x11, t.regRead 0x15, t.regRead 0x16, t.regRead 0x0E)) =
      some (1, 0x1020, 0x8602, 0) := by decide

theorem test_frame_badck :
    look (exec (.frameBadck { fPool with ckh := 1 }) { s0 with rx := rxPool })
      (fun t => (t.regRead 0x0F, t.regRead 0x10, t.regRead 0x11, t.regRead 0x12)) = some (0x01BF, 0xBF, 0, 1) := by decide

/-! ### Dispatcher: vectors CK-7, DISP-1 to DISP-4, DISP-11 -/

theorem test_cmd_frame :
    look (exec (.cmdFrame 8 true) { s0 with dsp := dspAt 1 11 1 0 }) (fun t => t.out.txData) = some 0xC2 ∧
    look (exec (.cmdFrame 0 false) { s0 with dsp := dspAt 1 8 1 0 }) (fun t => t.out.txData) = some 0x01 := by decide

theorem test_dsp_idle :
    look (exec .dspIdle { s0 with out := ⟨true, 5, 0, false, false⟩ }) (fun t => (t.out.txValid, t.out.txData, t.dsp)) =
      some (false, 0, s0.dsp) := by decide

theorem test_dsp_start : look (exec (.dspStart true 5) s0) (fun t => t.regRead 2) = some 0x1521 := by decide

theorem test_dsp_tx :
    look (exec (.dspTx true) { s0 with dsp := dspAt 1 3 1 3 }) (fun t => (t.out.txData, t.dsp)) =
      some (0xA5, dspAt 1 4 1 4) ∧
    look (exec (.dspTx false) { s0 with dsp := dspAt 1 0 1 201 }) (fun t => (t.out.txData, t.dsp)) =
      some (0xFF, dspAt 1 0 1 201) := by decide

theorem test_dsp_tx_end :
    look (exec .dspTxEnd { s0 with dsp := dspAt 1 11 1 11, store := { s0.store with fresh := true } })
      (fun t => (t.out.txData, t.dsp, t.store.fresh)) = some (0xBF, dspAt 2 0 1 12, false) := by decide

theorem test_dsp_wall_timeout :
    look (exec (.dspWallTimeout 2) { s0 with dsp := dspAt 2 0 1 201 }) (fun t => (t.regRead 2, t.out.txValid)) =
      some (0x1526, false) ∧
    look (exec (.dspWallTimeout 1) { s0 with dsp := dspAt 1 0 1 201 }) (fun t => t.regRead 2) = some 0x1536 := by decide

theorem test_dsp_success :
    look (exec .dspSuccess { s0 with dsp := dspAt 2 0 1 51 }) (fun t => t.regRead 2) = some 0x1522 := by decide

theorem test_dsp_retry :
    look (exec .dspRetry { s0 with dsp := dspAt 2 0 1 25 }) (fun t => t.dsp) = some (dspAt 1 0 2 26) := by decide

theorem test_dsp_exhaust :
    look (exec .dspExhaust { s0 with dsp := dspAt 2 0 5 25 }) (fun t => t.regRead 2) = some 0x552E := by decide

theorem test_dsp_wait :
    look (exec .dspWait { s0 with dsp := dspAt 2 0 1 25 }) (fun t => t.dsp) = some (dspAt 2 0 1 26) := by decide

/-! ### Cycles: DISP-8 (update and end of frame), DISP-10 (overrun in the timeout cycle), HOST-5 (count and clear), reset,
and how a word of the opcode table comes to run -/

theorem test_step_update_beats_invalidation :
    look (step { s0 with rx := rxStat, dsp := dspAt 1 11 1 11, tape := [rxIn 0xF3] })
      (fun t => (t.store.fresh, t.dsp.dstate, t.now)) = some (true, 2, 1) := by decide

theorem test_step_overrun_in_the_timeout_cycle :
    look (step { s0 with dsp := dspAt 2 0 1 201, tape := [wrIn 1 0x1015] }) (fun t => (t.regRead 3, t.regRead 2)) =
      some (2, 0x1526) := by decide

theorem test_step_count_survives_clear :
    look (step { s0 with
        rx := rxPool, diag := { s0.diag with cntOk := 7 }, tape := [{ wrIn 1 0x2004 with rxValid := true, rxData := 0xBF }] })
      (fun t => t.regRead 0x11) = some 1 := by decide

theorem test_step_reset :
    look (step { s0 with rx := rxPool, now := 9, tape := [{ wrIn 0 7 with rst := true }] })
      (fun t => (t.rx, t.now, t.regRead 0)) = some (Reader.reset, 0, 1) := by decide

theorem test_step_stray_encoding :
    faultOf (step { s0 with rx := { s0.rx with rstate := 5 }, tape := [CycleIn.quiet] }) =
      some .unreachableEncoding := by decide

theorem test_step_runs_a_placed_word :
    look (step (State.reset.withFetchWord 16 0x1015)) (fun t => t.regRead 2) = some 0x1521 := by decide

/-! ### For each obligation with hypotheses, values that meet them together; for one with several clauses, values for each
clause at the ends of its range -/

/-- TCFG with F_CLK_HZ = 1, so that TIMEOUT_TICKS is 5. -/
def slow : Params := { Config.tcfg with fClkHz := 1 }

/-- The step of a state has a next state. -/
def goesOn (s : State) : Bool := (look (step s) fun _ => true) == some true

theorem goesOn_next {s : State} (h : goesOn s = true) : ∃ t, step s = .next t := by
  unfold goesOn look at h
  split at h
  · exact ⟨_, ‹_›⟩
  · cases h
  · cases h

theorem test_witness_DecodeInvertsEncode :
    (Instr.setf true 8).wf Config.tcfg = true ∧ (Instr.illegalNop 1).wf Config.tcfg = true ∧
    (Instr.illegalSetf 0 true 9).wf Config.tcfg = true ∧ (Instr.illegalSetf 1 true 8).wf Config.tcfg = true ∧
    (Instr.illegalClr 1 0).wf Config.tcfg = true ∧ (Instr.regWriteOther 2 0).wf Config.tcfg = true ∧
    (Instr.frameTelem fTel).wf Config.tcfg = true ∧ (Instr.frameStatus fStat).wf Config.tcfg = true ∧
    (Instr.frameSkip fPool).wf Config.tcfg = true ∧ (Instr.frameBadck { fPool with ckh := 1 }).wf Config.tcfg = true ∧
    (Instr.cmdFrame 8 true).wf Config.tcfg = true ∧ (Instr.dspStart false 8).wf Config.tcfg = true ∧
    (Instr.dspWallTimeout 1).wf Config.tcfg = true ∧ (Instr.dspWallTimeout 2).wf Config.tcfg = true ∧
    Instr.dspIdle.wf Config.tcfg = true := by decide

/-- The illegal words as the obligations write 30_encoding.md R116. -/
abbrev IllegalText (w : Half) : Prop :=
  3 ≤ w.toNat / 4096 ∨ (w.toNat / 4096 = 0 ∧ w.toNat % 4096 ≠ 0) ∨
    (w.toNat / 4096 = 1 ∧ (w.toNat / 32 % 128 ≠ 0 ∨ 9 ≤ w.toNat % 16)) ∨ (w.toNat / 4096 = 2 ∧ w.toNat / 8 % 512 ≠ 0)

/-- One illegal word for each of (a) to (d) of 30_encoding.md R116, and the legal words next to them. -/
theorem test_witness_IllegalWordsAreExactlyThoseOfR116 :
    IllegalText 0x3000 ∧ IllegalText 0xFFFF ∧ IllegalText 0x0001 ∧ IllegalText 0x1020 ∧ IllegalText 0x1009 ∧
    IllegalText 0x2008 ∧ ¬ IllegalText 0x0000 ∧ ¬ IllegalText 0x1018 ∧ ¬ IllegalText 0x2007 := by
  refine ⟨?_, ?_, ?_, ?_, ?_, ?_, ?_, ?_, ?_⟩ <;> decide

theorem test_witness_CommandWriteTakesTheBranchOfItsOp :
    IllegalText 0x3000 ∧ (¬ IllegalText 0x0000 ∧ (0x0000 : Half).toNat / 4096 = 0) ∧
    (¬ IllegalText 0x1008 ∧ (0x1008 : Half).toNat / 4096 = 1) ∧
    (¬ IllegalText 0x2007 ∧ (0x2007 : Half).toNat / 4096 = 2) := by decide

theorem test_witness_EveryCommandFrameIsAccepted : (8 : BitVec 4).toNat < 9 := by decide

theorem test_witness_ReaderSelectionFollowsItsOrder :
    ((⟨true, true, true, 4, 0, 1⟩ : RxSel).chanFail = true) ∧
    (let x : RxSel := ⟨false, false, true, 4, 0, 1⟩; x.chanFail = false ∧ x.rstate = 4) ∧
    (let x : RxSel := ⟨false, false, true, 3, 1, 1⟩; (x.chanFail = false ∧ x.rstate ≠ 4) ∧ x.rxEn = false) ∧
    (let x : RxSel := ⟨false, true, false, 3, 1, 1⟩;
      (x.chanFail = false ∧ x.rstate ≠ 4) ∧ x.rxEn = true ∧ x.rxValid = false) ∧
    (∀ (r : BitVec 3) (k : BitVec 1), let x : RxSel := ⟨false, true, true, r, k, 1⟩;
      r ≠ 4 → (x.chanFail = false ∧ x.rstate ≠ 4) ∧ x.rxEn = true ∧ x.rxValid = true) := by decide

theorem test_witness_DispatcherSelectionFollowsItsOrder :
    (s0.dsp.dstate = 0 ∧ (wrIn 1 0x1015).hWe = true ∧ (wrIn 1 0x1015).hAddr = 1 ∧
      decodeCmd (wrIn 1 0x1015).hWdata = .setf true 5) ∧ CycleIn.quiet.hWe = false ∧
    (let s := { s0 with dsp := dspAt 1 11 1 201 }; s.dsp.dstate = 1 ∧ 5 * s.cfg.fClkHz < s.dsp.elapsed) ∧
    (let s := { s0 with dsp := dspAt 1 11 1 200 };
      ¬ 5 * s.cfg.fClkHz < s.dsp.elapsed ∧ CycleIn.quiet.txReady = true ∧ s.dsp.txidx = 11) ∧
    (let s := { s0 with dsp := dspAt 1 10 1 200 }; ¬ 5 * s.cfg.fClkHz < s.dsp.elapsed ∧ s.dsp.txidx ≠ 11) ∧
    (let s := { s0 with dsp := dspAt 2 0 5 201, store := ⟨{ s0.store.snap with vEquip := true, equip := 0x20 }, true, 1⟩ };
      s.dsp.dstate = 2 ∧ s.store.fresh = true ∧ s.store.snap.vEquip = true ∧
        s.store.snap.equip.getLsbD s.dsp.cFeat.toNat = s.dsp.cSt) ∧
    (let s := { s0 with dsp := dspAt 2 0 5 201 }; s.store.fresh = false ∧ 5 * s.cfg.fClkHz < s.dsp.elapsed) ∧
    (let s := { s0 with dsp := dspAt 2 0 4 200, store := { s0.store with fresh := true } };
      s.store.fresh = true ∧ s.store.snap.vEquip = false ∧ ¬ 5 * s.cfg.fClkHz < s.dsp.elapsed ∧ s.dsp.att.toNat < 5) ∧
    (let s := { s0 with dsp := dspAt 2 0 5 200, store := { s0.store with fresh := true } };
      s.store.fresh = true ∧ s.store.snap.vEquip = false ∧ ¬ 5 * s.cfg.fClkHz < s.dsp.elapsed ∧ 5 ≤ s.dsp.att.toNat) ∧
    (let s := { s0 with dsp := dspAt 2 0 5 200 };
      s.dsp.dstate = 2 ∧ s.store.fresh = false ∧ ¬ 5 * s.cfg.fClkHz < s.dsp.elapsed) := by decide

/-- Frames of every class, with LEN 8 and 9 at the border of STATUS. -/
theorem test_witness_FrameBytesDecodeToTheirClass :
    (fPool.payload.length = fPool.len.toNat ∧ fStat.payload.length = fStat.len.toNat ∧
      fTel.payload.length = fTel.len.toNat) ∧
    (256 * fPool.ckh.toNat + fPool.ckl.toNat =
      ([0x20, 0x10, 0x86, 0x02] ++ fPool.payload.map BitVec.toNat).sum % 65536) ∧
    (256 * fStat.ckh.toNat + fStat.ckl.toNat =
      ([0x0F, 0x10, 0x02, 0x09] ++ fStat.payload.map BitVec.toNat).sum % 65536 ∧ 8 < fStat.len.toNat) ∧
    (256 * fTel.ckh.toNat + fTel.ckl.toNat =
      ([0x10, 0x60, 0x07, 0x0F] ++ fTel.payload.map BitVec.toNat).sum % 65536 ∧
      fTel.src = Config.tcfg.addrPump ∧ fTel.cmd = Config.tcfg.cmdTelem ∧
      fTel.len.toNat + 10 = Config.tcfg.telemFrameLen) ∧
    (let f : Frame := ⟨0x0F, 0x10, 0x02, 0x08, [0, 0, 0, 0, 0, 0, 0, 0], 0x00, 0x29⟩
     f.payload.length = f.len.toNat ∧ 256 * f.ckh.toNat + f.ckl.toNat = 0x0F + 0x10 + 0x02 + 0x08 ∧
      f.len.toNat ≤ 8) := by decide

theorem test_witness_OneChangedByteIsDetected :
    fPool.valid = true ∧ (0x21 : Byte) ≠ fPool.dst ∧ (0x11 : Byte) ≠ fPool.src ∧ (0x87 : Byte) ≠ fPool.cmd ∧
    (1 : Byte) ≠ fPool.ckh ∧ (0xBE : Byte) ≠ fPool.ckl ∧ fPool.payload[1]? = some 1 ∧ (0 : Byte) ≠ 1 := by decide

theorem test_witness_OtherWritesChangeNothing :
    ((2 : BitVec 5) ≠ 0 ∧ (2 : BitVec 5) ≠ 1) ∧ (1 : BitVec 5).toNat = 1 ∧ 0x17 ≤ (0x17 : BitVec 5).toNat ∧
    0x17 ≤ (0x1F : BitVec 5).toNat := by decide

theorem test_witness_SetfStartsACommandOrOverruns :
    s0.dsp.dstate = 0 ∧ { s0 with dsp := dspAt 1 0 1 0 }.dsp.dstate ≠ 0 := by decide

/-- The channel fails in the cycle of a last checksum byte; a byte arrives in FAILED. -/
theorem test_witness_ChannelFailureIsPermanent :
    (let s := { s0 with rx := rxStat, tape := [{ rxIn 0xF3 with chanFail := true }] }
     goesOn s = true ∧ s.input.rst = false ∧ s.input.chanFail = true) ∧
    (let s := { s0 with rx := { rxStat with rstate := 4 }, err := ⟨false, false, true⟩, tape := [rxIn 0xF3] }
     goesOn s = true ∧ s.input.rst = false ∧ s.input.chanFail = false ∧ s.rx.rstate = 4) := by decide

theorem test_witness_HuntSynchronizesOnTheFullWindow :
    (let s := { s0 with rx := { s0.rx with win := ⟨0, 0xFF, 0, 0xFF⟩, wfill := 3 } }
     min (s.rx.wfill.toNat + 1) 4 = 4 ∧ (⟨s.rx.win.b1, s.rx.win.b2, s.rx.win.b3, 0xA5⟩ : Quad) = s.cfg.preamble) ∧
    (let s := { s0 with rx := { s0.rx with win := ⟨0, 0xFF, 0, 0xFF⟩, wfill := 2 } }
     ¬ (min (s.rx.wfill.toNat + 1) 4 = 4)) := by decide

theorem test_witness_HeaderBytesAreStoredAndSummed :
    (∀ n : BitVec 2, { s0 with rx := { s0.rx with rstate := 1, hcnt := n } }.rx.hcnt = n) := by decide

/-- The first and the last slot of PBUF. -/
theorem test_witness_PayloadByteIsStoredAndSummed :
    (let s := { s0 with rx := { s0.rx with rstate := 2, pcnt := 254, fLen := 255 } }
     s.rx.pbuf.wf = true ∧ s.rx.pcnt.toNat < 255 ∧ s.rx.pcnt.toNat + 1 = s.rx.fLen.toNat) ∧
    (let s := { s0 with rx := { s0.rx with rstate := 2, pcnt := 0, fLen := 2 } }
     s.rx.pbuf.wf = true ∧ s.rx.pcnt.toNat < 255 ∧ s.rx.pcnt.toNat + 1 ≠ s.rx.fLen.toNat) := by decide

theorem test_witness_PayloadByteBeyondTheBufferStops :
    { s0 with rx := { s0.rx with pcnt := 255 } }.rx.pcnt = 255 := by decide

theorem test_witness_LastByteCompletesTheFrame : { s0 with rx := rxStat }.cfg.wf = true := by decide

theorem test_witness_TelemetryFrameUpdatesThePump :
    s0.cfg.wf = true ∧ (Instr.frameTelem fTel).wf s0.cfg = true := by decide

theorem test_witness_StatusFrameUpdatesTheSnapshot :
    s0.cfg.wf = true ∧ (Instr.frameStatus fStat).wf s0.cfg = true := by decide

theorem test_witness_CommandFrameByteIsOffered :
    (8 : BitVec 4).toNat < 9 ∧ { s0 with dsp := dspAt 1 11 1 0 }.dsp.txidx.toNat ≤ 11 ∧ s0.dsp.txidx.toNat ≤ 11 := by
  decide

theorem test_witness_TransmittingCycleOffersTheNextByte :
    (let s := { s0 with dsp := dspAt 1 11 1 0 }
     s.dsp.cFeat.toNat < 9 ∧ s.dsp.txidx.toNat ≤ 11 ∧ s.dsp.txidx = 11) ∧
    (let s := { s0 with dsp := dspAt 1 10 1 0 }
     s.dsp.cFeat.toNat < 9 ∧ s.dsp.txidx.toNat ≤ 11 ∧ ¬ (true = true ∧ s.dsp.txidx = 11)) := by decide

theorem test_witness_EndOfFrameInvalidatesAndWaits :
    (let s := { s0 with dsp := dspAt 1 11 1 11 }
     s.dsp.cFeat.toNat < 9 ∧ s.dsp.txidx.toNat ≤ 11) := by decide

/-- A cycle that reads, starts a command and hunts. -/
theorem test_witness_StepRunsTheDecodedOperations :
    (let s := { s0 with tape := [{ wrIn 1 0x1015 with rxValid := true, rxData := 0xFF }] }
     let b := { s with tape := s.tape.tail, cycle := s.cycle + 1, events := [] }
     s.cfg.wf = true ∧ s.legal = true ∧ s.input.rst = false ∧
     dec (.host true 1 0x1015) = some (.regWriteCmd 0x1015) ∧ dec (.dsp (b.dspSel s.input)) = some (.dspStart true 5) ∧
     dec (.rx (b.rxSel s.input)) = some (.rxHunt 0xFF) ∧ goesOn s = true) := by decide

theorem test_witness_ResetCycleResetsEveryRegister :
    (let s := { s0 with rx := rxStat, tape := [{ CycleIn.quiet with rst := true }] }
     s.cfg.wf = true ∧ s.input.rst = true) := by decide

/-- 00_scope.md R8 as the obligation writes it. -/
abbrev ConfigText (c : Params) : Prop :=
  c.offEq1 ≤ 8 ∧ c.offEq2 ≤ 8 ∧ c.offHour ≤ 8 ∧ c.offMin ≤ 8 ∧ c.offWtemp ≤ 254 ∧ c.offAtemp ≤ 254 ∧
    10 ≤ c.telemFrameLen ∧ c.telemFrameLen ≤ 265 ∧ c.offPwatt + 1 < c.telemFrameLen - 10 ∧
    c.offPrpm + 1 < c.telemFrameLen - 10 ∧ 1 ≤ c.fClkHz

/-- A configuration at every bound of 00_scope.md R8, and two beyond one. -/
theorem test_witness_OnlyWellFormedConfigurationsRun :
    ConfigText { Config.tcfg with
      offEq1 := 8, offEq2 := 8, offHour := 8, offMin := 8, offWtemp := 254, offAtemp := 254, telemFrameLen := 265
      offPwatt := 253, offPrpm := 253, fClkHz := 1 } ∧
    ¬ ConfigText { Config.tcfg with telemFrameLen := 265, offPwatt := 254 } ∧
    ¬ ConfigText { Config.tcfg with fClkHz := 0 } := by decide

theorem test_witness_UnreachableEncodingsFaultAndAreNeverProduced :
    (let s := { s0 with dsp := { s0.dsp with dstate := 3 }, tape := [CycleIn.quiet] }
     s.cfg.wf = true ∧ s.input.rst = false ∧ s.dsp.dstate.toNat = 3) ∧ 5 ≤ (5 : BitVec 3).toNat ∧
    11 < (12 : BitVec 4).toNat ∧ 5 < (6 : BitVec 4).toNat ∧ 4 < (5 : BitVec 3).toNat ∧
    goesOn { s0 with tape := [CycleIn.quiet] } = true := by decide

/-- NOW at its last value, and a reset cycle. -/
theorem test_witness_NowCountsEveryCycle :
    (let s := { s0 with now := 0xFFFFFFFF, tape := [CycleIn.quiet] }
     goesOn s = true ∧ s.input.rst = false) ∧
    (let s := { s0 with now := 5, tape := [{ CycleIn.quiet with rst := true }] }
     goesOn s = true ∧ s.input.rst = true) := by decide

/-- An update with the end of a command frame, the end of a command frame alone, and neither. -/
theorem test_witness_UpdateBeatsInvalidation :
    (let s := { s0 with rx := rxStat, dsp := dspAt 1 11 1 200, tape := [rxIn 0xF3] }
     look (step s) (fun t => decide (t.store.seq ≠ s.store.seq)) = some true ∧ s.input.rst = false ∧ s.dsp.dstate = 1 ∧
       s.dsp.elapsed ≤ 5 * s.cfg.fClkHz ∧ s.input.txReady = true ∧ s.dsp.txidx = 11) ∧
    (let s := { s0 with dsp := dspAt 1 11 1 200, store := { s0.store with fresh := true }, tape := [CycleIn.quiet] }
     look (step s) (fun t => decide (t.store.seq = s.store.seq)) = some true ∧ s.input.rst = false ∧ s.dsp.dstate = 1 ∧
       s.dsp.elapsed ≤ 5 * s.cfg.fClkHz ∧ s.input.txReady = true ∧ s.dsp.txidx = 11) ∧
    (let s := { s0 with dsp := dspAt 1 11 1 201, tape := [CycleIn.quiet] }
     look (step s) (fun t => decide (t.store.seq = s.store.seq)) = some true ∧ s.input.rst = false ∧
       ¬ s.dsp.elapsed ≤ 5 * s.cfg.fClkHz) := by decide

theorem test_witness_SnapshotChangesOnlyWithSeqAndFresh :
    (let s := { s0 with rx := rxStat, tape := [rxIn 0xF3] }
     goesOn s = true ∧ s.input.rst = false) := by decide

/-- LEN 8 and 9, a frame that is not of telemetry length, a valid V_EQUIP, and a cycle without acceptance. -/
theorem test_witness_OnlyAcceptedFramesChangeTheStore :
    (let s := { s0 with rx := { rxPool with fLen := 8 }, tape := [rxIn 0xBF] }
     goesOn s = true ∧ s.input.rst = false ∧ s.rx.fLen.toNat ≤ 8 ∧ s.rx.fLen.toNat + 10 ≠ s.cfg.telemFrameLen) ∧
    (let s := { s0 with
        rx := rxStat, store := { s0.store with snap := { s0.store.snap with vEquip := true } }, tape := [rxIn 0xF2] }
     goesOn s = true ∧ s.input.rst = false ∧ s.store.snap.vEquip = true ∧
     ¬ 256 * s.rx.ckh.toNat + s.input.rxData.toNat = s.rx.sum.toNat) := by decide

/-- A clear in the cycle of a last byte, right and wrong, in the timeout cycle, and alone. -/
theorem test_witness_EventsOfACycleSurviveItsClear :
    (let s := { s0 with rx := rxStat, dsp := dspAt 2 0 1 201, tape := [{ wrIn 1 0x2007 with rxValid := true, rxData := 0xF3 }] }
     look (step s) (fun t => t.dsp.dstate) = some 0 ∧ s.input.rst = false ∧ s.input.hWe = true ∧ s.input.hAddr = 1 ∧
     s.input.hWdata = BitVec.ofNat 16 (0x2000 + true.toNat + 2 * true.toNat + 4 * true.toNat) ∧ s.dsp.dstate ≠ 0 ∧
     s.input.chanFail = false ∧ s.ctrl.rxEn = true ∧ s.input.rxValid = true ∧ s.rx.rstate = 3 ∧ s.rx.kcnt = 1 ∧
     256 * s.rx.ckh.toNat + s.input.rxData.toNat = s.rx.sum.toNat) ∧
    (let s := { s0 with rx := rxStat, tape := [{ wrIn 1 0x2000 with rxValid := true, rxData := 0xF2 }] }
     goesOn s = true ∧ s.input.hWdata = BitVec.ofNat 16 0x2000 ∧ s.dsp.dstate = 0 ∧
     256 * s.rx.ckh.toNat + s.input.rxData.toNat ≠ s.rx.sum.toNat) ∧
    (let s := { s0 with tape := [wrIn 1 0x2004] }
     goesOn s = true ∧ s.input.rxValid = false) := by decide

/-- A cycle that sends, a cycle of the timeout, and a reset cycle. -/
theorem test_witness_OutputsShowTheStateOfTheCycle :
    (let s := { s0 with dsp := dspAt 1 11 1 200, tape := [CycleIn.quiet] }
     goesOn s = true ∧ s.input.rst = false ∧ s.dsp.dstate = 1 ∧ s.dsp.elapsed ≤ 5 * s.cfg.fClkHz) ∧
    (let s := { s0 with dsp := dspAt 1 11 1 201, tape := [CycleIn.quiet] }
     goesOn s = true ∧ ¬ s.dsp.elapsed ≤ 5 * s.cfg.fClkHz) ∧
    (let s := { s0 with dsp := dspAt 1 0 1 0, tape := [{ CycleIn.quiet with rst := true }] }
     goesOn s = true ∧ s.input.rst = true) := by decide

/-- Two readers in CK before a last byte, with other bytes assembled. -/
theorem test_witness_PartialFrameIsNotExposed :
    (let s := { s0 with rx := rxStat, dsp := dspAt 1 3 1 3, tape := [rxIn 0xF3] }
     rxPool ≠ s.rx ∧ rxPool.rstate = s.rx.rstate ∧ goesOn s = true ∧ goesOn { s with rx := rxPool } = true) := by decide

theorem test_witness_DispatcherIgnoresTheReceiverInACycle :
    (let s := { s0 with rx := rxStat }
     let i := CycleIn.quiet
     let j := rxIn 0xF3
     i.rst = j.rst ∧ i.txReady = j.txReady ∧ i.hWe = j.hWe ∧ i.hAddr = j.hAddr ∧ i.hWdata = j.hWdata ∧
     goesOn { s with tape := [i] } = true ∧ goesOn { s with tape := [j] } = true) := by decide

theorem test_witness_ReceiverIgnoresDispatcherAndHostInACycle :
    (let s := { s0 with rx := rxStat }
     let i := rxIn 0xF3
     let j := { wrIn 0 0 with rxValid := true, rxData := 0xF3, txReady := false }
     i.rst = j.rst ∧ i.rxValid = j.rxValid ∧ i.rxData = j.rxData ∧ i.chanFail = j.chanFail ∧
     goesOn { s with tape := [i] } = true ∧ goesOn { s with tape := [j], dsp := dspAt 1 3 1 3 } = true) := by decide

theorem test_witness_ConfigurationIsFixed : goesOn { s0 with tape := [CycleIn.quiet] } = true := by decide

/-- A state in the payload of a frame and in the middle of a command. -/
def busyState : State :=
  { s0 with
    rx := { rxPool with rstate := 2, kcnt := 0, pcnt := 1, sum := 0xBE, pbuf := [(0, 6)] }
    dsp := dspAt 1 3 1 3, tape := [rxIn 1] }

theorem test_witness_StepKeepsTheInvariant : busyState.Inv ∧ ∃ t, step busyState = .next t :=
  ⟨⟨by decide, ⟨by decide, by decide⟩, ⟨by decide, by decide, by decide⟩, by unfold State.LinkRight; decide,
    ⟨by decide, by decide, by decide, by decide, by decide, by decide, by decide⟩,
    ⟨by decide, by decide, by decide, by decide, by decide⟩⟩, goesOn_next (by decide)⟩

theorem test_witness_NoReachableStateStops : busyState.cfg.wf = true ∧ busyState.Inv :=
  ⟨by decide, test_witness_StepKeepsTheInvariant.1⟩

/-- A command that waits, with TIMEOUT_TICKS = 5 and three of its cycles left. -/
def waitState : State :=
  { State.powerOn slow [CycleIn.quiet, rxIn 1, CycleIn.quiet] with dsp := dspAt 2 0 1 4 }

theorem test_witness_EveryCommandEndsInTime :
    waitState.cfg.wf = true ∧ waitState.Inv ∧ waitState.dsp.dstate ≠ 0 ∧
    5 * waitState.cfg.fClkHz + 2 ≤ waitState.tape.length + waitState.dsp.elapsed ∧
    (∀ i ∈ waitState.tape, i.rst = false) :=
  ⟨by decide, ⟨by decide, ⟨by decide, by decide⟩, ⟨by decide, by decide, by decide⟩, by unfold State.LinkRight; decide,
    ⟨by decide, by decide, by decide, by decide, by decide, by decide, by decide⟩,
    ⟨by decide, by decide, by decide, by decide, by decide⟩⟩, by decide, by decide, by decide⟩

/-- Vector CK-1 on the receive port. -/
def poolState : State :=
  { s0 with
    tape := [rxIn 0xFF, rxIn 0x00, rxIn 0xFF, rxIn 0xA5, rxIn 0x20, rxIn 0x10, rxIn 0x86, rxIn 0x02, rxIn 0x06, rxIn 0x01,
      rxIn 0x00, rxIn 0xBF] }

theorem test_witness_ReceivingAFrameRunsItsOperation :
    poolState.cfg.wf = true ∧ poolState.Inv ∧ poolState.rx.rstate = 0 ∧ poolState.rx.wfill = 0 ∧
    poolState.ctrl.rxEn = true ∧ fPool.payload.length = fPool.len.toNat ∧
    poolState.tape =
      (fPool.bytes poolState.cfg).map (fun b => { CycleIn.quiet with rxValid := true, rxData := b }) ++ [] ∧
    dec (.frame (fPool.bytes poolState.cfg)) = some (.frameSkip fPool) ∧
    (look (exec (.frameSkip fPool) { poolState with
        now := poolState.now + BitVec.ofNat 32 (fPool.len.toNat + 9)
        rx := { poolState.rx with sum := cksum fPool.summed } }) fun _ => true) = some true :=
  ⟨by decide, ⟨by decide, ⟨by decide, by decide⟩, ⟨by decide, by decide, by decide⟩, by unfold State.LinkRight; decide,
    ⟨by decide, by decide, by decide, by decide, by decide, by decide, by decide⟩,
    ⟨by decide, by decide, by decide, by decide, by decide⟩⟩, by decide, by decide, by decide, by decide, by decide, by decide, by decide⟩

/-- A command at its first byte, with twelve cycles listed. -/
def sendState : State :=
  { State.powerOn { slow with fClkHz := 40 } (List.replicate 12 CycleIn.quiet) with dsp := dspAt 1 0 1 189 }

theorem test_witness_AnAttemptSendsTheTwelveBytes :
    sendState.cfg.wf = true ∧ sendState.Inv ∧ sendState.dsp.dstate = 1 ∧ sendState.dsp.txidx = 0 ∧
    sendState.dsp.elapsed + 11 ≤ 5 * sendState.cfg.fClkHz ∧ 12 ≤ sendState.tape.length ∧
    (∀ i ∈ sendState.tape, i.rst = false ∧ i.txReady = true) ∧ 11 < 12 :=
  ⟨by decide, ⟨by decide, ⟨by decide, by decide⟩, ⟨by decide, by decide, by decide⟩, by unfold State.LinkRight; decide,
    ⟨by decide, by decide, by decide, by decide, by decide, by decide, by decide⟩,
    ⟨by decide, by decide, by decide, by decide, by decide⟩⟩, by decide, by decide, by decide, by decide, by decide, by decide⟩

/-- Payloads of length 0, 8, 9 and 255, and a telemetry frame. -/
theorem test_witness_PseudoDirectivesAreTheirOperations :
    (([] : List Byte).length ≤ 255 ∧ (List.replicate 8 (0 : Byte)).length ≤ 8 ∧
      8 < (List.replicate 9 (0 : Byte)).length ∧ (List.replicate 255 (0xFF : Byte)).length ≤ 255) ∧
    (fTel.src = Config.tcfg.addrPump ∧ fTel.cmd = Config.tcfg.cmdTelem ∧
      fTel.payload.length + 10 = Config.tcfg.telemFrameLen) ∧ fStat.src ≠ Config.tcfg.addrPump :=
  ⟨⟨by decide, by decide, by decide, by rw [List.length_replicate]⟩, by decide, by decide⟩

end Sys2Proof.Tests
end

section
/-! PROOFS. Which steps are refused: only those of a configuration that breaks 00_scope.md R8. No operation is refused,
sequencing adds no refusal, and the configuration check of a cycle is R8 itself. -/
namespace Sys2Proof

/-- The model's configuration check is 00_scope.md R8 (a) to (d). -/
theorem Params.wf_iff (c : Params) :
    c.wf = true ↔
      c.offEq1 ≤ 8 ∧ c.offEq2 ≤ 8 ∧ c.offHour ≤ 8 ∧ c.offMin ≤ 8 ∧ c.offWtemp ≤ 254 ∧ c.offAtemp ≤ 254 ∧
      10 ≤ c.telemFrameLen ∧ c.telemFrameLen ≤ 265 ∧ c.offPwatt + 1 < c.telemFrameLen - 10 ∧
      c.offPrpm + 1 < c.telemFrameLen - 10 ∧ 1 ≤ c.fClkHz := by
  rw [← Params.telemLen]
  simp only [Params.wf, Bool.and_eq_true, decide_eq_true_eq, and_assoc]

namespace Machine

/-- The outcome is a next state or a fault. -/
def NotRefused (o : Host.Outcome State Fault Refusal) : Prop := ∀ r, o ≠ .refused r

@[simp] theorem notRefused_next (s : State) : NotRefused (.next s) := fun _ h => by cases h

@[simp] theorem notRefused_fault (r : Fault) : NotRefused (.fault r) := fun _ h => by cases h

theorem NotRefused.andThen {o : Host.Outcome State Fault Refusal} {k : State → Host.Outcome State Fault Refusal}
    (ho : NotRefused o) (hk : ∀ s, NotRefused (k s)) : NotRefused (andThen o k) := by
  cases o with
  | next s => exact hk s
  | fault r => exact notRefused_fault r
  | refused r => exact absurd rfl (ho r)

/-! ### The operations that branch or sequence -/

theorem execCmdFrame_notRefused (feat : BitVec 4) (st : Bool) (s : State) : NotRefused (execCmdFrame feat st s) := by
  unfold execCmdFrame
  split <;> simp

theorem execDspTxEnd_notRefused (s : State) : NotRefused (execDspTxEnd s) :=
  (execCmdFrame_notRefused _ _ s).andThen fun _ => notRefused_next _

theorem execDspTx_notRefused (ready : Bool) (s : State) : NotRefused (execDspTx ready s) := by
  unfold execDspTx
  split
  · exact execDspTxEnd_notRefused s
  · exact (execCmdFrame_notRefused _ _ s).andThen fun _ => notRefused_next _

theorem execFrameTelem_notRefused (f : Frame) (s : State) : NotRefused (execFrameTelem f s) := by
  unfold execFrameTelem
  split <;> simp

theorem execFrameStatus_notRefused (f : Frame) (s : State) : NotRefused (execFrameStatus f s) := by
  unfold execFrameStatus
  split <;> simp

theorem completeFrame_notRefused (f : Frame) (s : State) : NotRefused (completeFrame f s) := by
  unfold completeFrame
  split
  · split
    · exact execFrameTelem_notRefused f s
    · exact execFrameStatus_notRefused f s
    · exact notRefused_next _
  · exact notRefused_next _

theorem execRxHunt_notRefused (b : Byte) (s : State) : NotRefused (execRxHunt b s) := by
  unfold execRxHunt
  dsimp only
  split <;> simp

theorem execRxHdr_notRefused (b : Byte) (s : State) : NotRefused (execRxHdr b s) := by
  unfold execRxHdr
  dsimp only
  split <;> simp

theorem execRxPay_notRefused (b : Byte) (s : State) : NotRefused (execRxPay b s) := by
  unfold execRxPay
  dsimp only
  split
  · exact notRefused_fault _
  · split <;> simp

theorem execRxCk1_notRefused (b : Byte) (s : State) : NotRefused (execRxCk1 b s) :=
  (completeFrame_notRefused _ s).andThen fun _ => notRefused_next _

theorem execSetf_notRefused (st : Bool) (feat : BitVec 4) (s : State) : NotRefused (execSetf st feat s) := by
  unfold execSetf
  split <;> simp

theorem execRegWriteCmd_notRefused (w : Half) (s : State) : NotRefused (execRegWriteCmd w s) := by
  rcases execRegWriteCmd_cases w s with ⟨-, h⟩ | ⟨-, -, h⟩ | ⟨-, -, -, h⟩ | ⟨-, -, -, h⟩ | ⟨-, -, -, h⟩ <;>
    exact h ▸ notRefused_next _

/-! ### Every operation, every unit, and the cycle -/

/-- Every operation has a meaning in every state; the operations not named here answer a next state at once. -/
theorem exec_notRefused (i : Instr) (s : State) : NotRefused (exec i s) := by
  cases i with
  | setf st feat => exact execSetf_notRefused st feat s
  | regWriteCmd w => exact execRegWriteCmd_notRefused w s
  | rxHunt b => exact execRxHunt_notRefused b s
  | rxHdr b => exact execRxHdr_notRefused b s
  | rxPay b => exact execRxPay_notRefused b s
  | rxCk1 b => exact execRxCk1_notRefused b s
  | frameTelem f => exact execFrameTelem_notRefused f s
  | frameStatus f => exact execFrameStatus_notRefused f s
  | cmdFrame feat st => exact execCmdFrame_notRefused feat st s
  | dspTx ready => exact execDspTx_notRefused ready s
  | dspTxEnd => exact execDspTxEnd_notRefused s
  | _ => exact notRefused_next _

theorem runUnit_notRefused (code : Code) (s : State) : NotRefused (runUnit code s) := by
  unfold runUnit
  split
  · exact exec_notRefused _ s
  · exact notRefused_fault _

theorem runUnits_notRefused (i : CycleIn) (s : State) : NotRefused (runUnits i s) :=
  (runUnit_notRefused _ _).andThen fun _ => (runUnit_notRefused _ _).andThen fun _ =>
    (runUnit_notRefused _ _).andThen fun _ => (runUnit_notRefused _ _).andThen fun _ => notRefused_next _

theorem step_refused_of_not_wf {s : State} (h : ¬ s.cfg.wf = true) : step s = .refused .badConfig := by
  unfold step runCycle
  rw [if_pos (by simpa using h)]

theorem step_notRefused_of_wf {s : State} (h : s.cfg.wf = true) : NotRefused (step s) := by
  unfold step runCycle
  rw [if_neg (by simp [h])]
  split
  · exact notRefused_next _
  · split
    · exact notRefused_fault _
    · exact runUnits_notRefused _ _

/-- Settles O42: the check of a cycle is R8, and no unit of a cycle refuses anything. -/
theorem onlyWellFormedConfigurationsRun : Obligations.OnlyWellFormedConfigurationsRun := by
  unfold Obligations.OnlyWellFormedConfigurationsRun
  intro s
  dsimp only
  rw [← Params.wf_iff]
  exact ⟨step_refused_of_not_wf, step_notRefused_of_wf⟩

end Machine

end Sys2Proof
end

section
/-! PROOFS. The host registers by their fields (10_state.md R48 to R64): each register's value as arithmetic over the
fields it is made of, what a read shows, and that no register but CTRL can be written or reads other than 0 after
reset. -/
namespace Sys2Proof

theorem toNat_append_add {m n : Nat} (x : BitVec m) (y : BitVec n) : (x ++ y).toNat = 2 ^ n * x.toNat + y.toNat := by
  rw [BitVec.toNat_append, ← Nat.shiftLeft_add_eq_or_of_lt y.isLt, Nat.shiftLeft_eq, Nat.mul_comm]

theorem getLsbD_eq_decide {n : Nat} (v : BitVec n) (i : Nat) : v.getLsbD i = decide (v.toNat / 2 ^ i % 2 = 1) := by
  rw [← BitVec.testBit_toNat, Nat.testBit_eq_decide_div_mod_eq]

namespace Machine

theorem bit_toNat (b : Bool) : (bit b).toNat = b.toNat := BitVec.toNat_ofBool b

theorem busy_toNat (s : State) : s.busy.toNat = if s.dsp.dstate = 0 then 0 else 1 := by
  split
  case isTrue idle => simp [State.busy, idle]
  case isFalse running => rw [(busy_iff s).mpr running, Bool.toNat_true]

/-! ### The registers made of several fields -/

theorem regCtrl_toNat (s : State) :
    s.regCtrl.toNat = s.ctrl.rxEn.toNat + 2 * s.ctrl.ieDone.toNat + 4 * s.ctrl.ieErr.toNat := by
  simp only [State.regCtrl, toNat_append_add, bit_toNat, BitVec.toNat_ofNat]
  omega

theorem regCmdstat_toNat (s : State) :
    s.regCmdstat.toNat = (if s.dsp.dstate = 0 then 0 else 1) + 2 * s.res.done.toNat + 4 * s.res.result.toNat +
      8 * s.res.cause.toNat + 16 * s.res.aborted.toNat + 32 * s.dsp.cSt.toNat + 256 * s.dsp.cFeat.toNat +
      4096 * s.dsp.att.toNat := by
  simp only [State.regCmdstat, toNat_append_add, bit_toNat, BitVec.toNat_ofNat, ← busy_toNat]
  omega

theorem regErr_toNat (s : State) :
    s.regErr.toNat = s.err.illegalOp.toNat + 2 * s.err.cmdOverrun.toNat + 4 * s.err.linkFail.toNat := by
  simp only [State.regErr, toNat_append_add, bit_toNat, BitVec.toNat_ofNat]
  omega

theorem regRxstat_toNat (s : State) :
    s.regRxstat.toNat = s.rx.rstate.toNat + 8 * s.store.fresh.toNat + 16 * s.dsp.dstate.toNat := by
  simp only [State.regRxstat, toNat_append_add, bit_toNat, BitVec.toNat_ofNat]
  omega

theorem regSnapv_toNat (s : State) :
    s.regSnapv.toNat = s.store.snap.vEquip.toNat + 2 * s.store.snap.vTime.toNat + 4 * s.store.snap.vWtemp.toNat +
      8 * s.store.snap.vAtemp.toNat + 16 * s.store.snap.vAddr.toNat + 32 * s.store.snap.vPump.toNat +
      64 * s.store.snap.vTs.toNat := by
  simp only [State.regSnapv, toNat_append_add, bit_toNat, BitVec.toNat_ofNat]
  omega

/-- EQUIP has nine bits; the other seven of its register read 0 (10_state.md R54). -/
theorem equip_register_toNat (equip : BitVec 9) : (0#7 ++ equip).toNat = equip.toNat := by
  rw [toNat_append_add, BitVec.toNat_ofNat, Nat.zero_mod, Nat.mul_zero, Nat.zero_add]

theorem low_half_toNat (v : BitVec 32) : (v.extractLsb' 0 16).toNat = v.toNat % 65536 := by
  simp [BitVec.extractLsb'_toNat]

theorem high_half_toNat (v : BitVec 32) : (v.extractLsb' 16 16).toNat = v.toNat / 65536 := by
  have := v.isLt
  simp only [BitVec.extractLsb'_toNat, Nat.shiftRight_eq_div_pow]
  omega

/-! ### Access -/

/-- A read shows the register's value, which fits its 16 bits, and changes nothing else. -/
theorem regRead_shows {s : State} {a : BitVec 5} {n : Nat} (h : (s.regRead a).toNat = n) :
    exec (.regRead a) s = .next { s with out := { s.out with hRdata := BitVec.ofNat 16 n } } ∧ n < 65536 := by
  subst h
  rw [BitVec.ofNat_toNat, BitVec.setWidth_eq]
  exact ⟨rfl, (s.regRead a).isLt⟩

/-- No register shows the configuration or the tape, so an instance reads after reset as the one with TCFG does. -/
theorem powerOn_regRead_eq_reset (c : Params) (tape : List CycleIn) (a : BitVec 5) :
    (State.powerOn c tape).regRead a = State.reset.regRead a := rfl

theorem powerOn_regRead (c : Params) (tape : List CycleIn) (a : BitVec 5) :
    (State.powerOn c tape).regRead a = if a = 0 then 1 else 0 := by
  have reset_regRead : ∀ a, State.reset.regRead a = if a = 0 then 1 else 0 := by decide
  rw [powerOn_regRead_eq_reset, reset_regRead]

/-- A register other than CTRL ignores a write and is 0 after reset. -/
theorem readOnly_and_zero_after_reset (s : State) (c : Params) (tape : List CycleIn) (v : Half) {a : BitVec 5}
    (ha : a ≠ 0) : exec (.regWriteOther a v) s = .next s ∧ (State.powerOn c tape).regRead a = 0 :=
  ⟨rfl, by rw [powerOn_regRead, if_neg ha]⟩

/-! ### The statements -/

/-- Settles O12: each of the four registers is the sum of its fields at their bits. -/
theorem statusRegistersShowTheirFields : Obligations.StatusRegistersShowTheirFields := by
  unfold Obligations.StatusRegistersShowTheirFields
  intro s c tape v
  have readOnly {a : BitVec 5} := readOnly_and_zero_after_reset s c tape v (a := a)
  exact ⟨regRead_shows (regCmdstat_toNat s), readOnly (by decide),
    regRead_shows (regErr_toNat s), readOnly (by decide),
    regRead_shows (regRxstat_toNat s), readOnly (by decide),
    regRead_shows (regSnapv_toNat s), readOnly (by decide)⟩

/-- Settles O13: the byte pairs by `toNat_append_byte`, TS by its halves, the others are fields themselves. -/
theorem snapshotRegistersShowTheirFields : Obligations.SnapshotRegistersShowTheirFields := by
  unfold Obligations.SnapshotRegistersShowTheirFields
  intro s c tape v
  have readOnly {a : BitVec 5} := readOnly_and_zero_after_reset s c tape v (a := a)
  exact ⟨regRead_shows (equip_register_toNat _), readOnly (by decide),
    regRead_shows (toNat_append_byte _ _), readOnly (by decide),
    regRead_shows (toNat_append_byte _ _), readOnly (by decide),
    regRead_shows (toNat_append_byte _ _), readOnly (by decide),
    regRead_shows rfl, readOnly (by decide),
    regRead_shows rfl, readOnly (by decide),
    regRead_shows (low_half_toNat _), readOnly (by decide),
    regRead_shows (high_half_toNat _), readOnly (by decide),
    regRead_shows rfl, readOnly (by decide)⟩

/-- Settles O14: the checksums and counts are fields themselves, NOW shows by halves, the last header by byte pairs. -/
theorem diagnosticRegistersShowTheirFields : Obligations.DiagnosticRegistersShowTheirFields := by
  unfold Obligations.DiagnosticRegistersShowTheirFields
  intro s c tape v
  have readOnly {a : BitVec 5} := readOnly_and_zero_after_reset s c tape v (a := a)
  exact ⟨regRead_shows rfl, readOnly (by decide),
    regRead_shows rfl, readOnly (by decide),
    regRead_shows rfl, readOnly (by decide),
    regRead_shows rfl, readOnly (by decide),
    regRead_shows (low_half_toNat _), readOnly (by decide),
    regRead_shows (high_half_toNat _), readOnly (by decide),
    regRead_shows (toNat_append_byte _ _), readOnly (by decide),
    regRead_shows (toNat_append_byte _ _), readOnly (by decide)⟩

/-- Settles O15: the bits stored are bits 0 to 2 of the value, and the register is the sum of the three fields. -/
theorem ctrlStoresItsThreeBits : Obligations.CtrlStoresItsThreeBits := by
  unfold Obligations.CtrlStoresItsThreeBits
  intro s v c tape
  have ctrlValue : (s.regRead 0x00).toNat = _ := regCtrl_toNat s
  refine ⟨?stores, (regRead_shows ctrlValue).1, powerOn_regRead c tape 0x00⟩
  case stores =>
    have bits := getLsbD_eq_decide v
    show Host.Outcome.next { s with
      ctrl := { rxEn := v.getLsbD 0, ieDone := v.getLsbD 1, ieErr := v.getLsbD 2 } } = _
    rw [bits 0, bits 1, bits 2, pow_zero, Nat.div_one]
    rfl

end Machine

end Sys2Proof
end

section
/-! PROOFS. The state after reset (10_state.md R70) and its invariant, the configuration along a step, and the end of
PBUF. -/
namespace Sys2Proof.Machine

/-- Settles O41: the elements are those of `State.powerOn`, PBUF lists no entry, and the registers are
`powerOn_regRead`. -/
theorem resetValuesAreThoseOfR70 : Obligations.ResetValuesAreThoseOfR70 := by
  unfold Obligations.ResetValuesAreThoseOfR70
  intro c tape
  exact ⟨rfl, rfl, fun _ => rfl, rfl, rfl, rfl, rfl, rfl, rfl, powerOn_regRead c tape, rfl⟩

/-! ### The parts of the invariant after reset -/

theorem powerOn_legal (c : Params) (tape : List CycleIn) : (State.powerOn c tape).legal = true := rfl

theorem powerOn_rstate_eq_iff (c : Params) (tape : List CycleIn) (r : BitVec 3) :
    (State.powerOn c tape).rx.rstate = r ↔ r = rHunt := eq_comm

theorem powerOn_readerRight (c : Params) (tape : List CycleIn) : (State.powerOn c tape).ReaderRight :=
  ⟨by simp [powerOn_rstate_eq_iff], Pbuf.reset_wf c tape⟩

/-- The FrameReader hunts, so no checksum is in progress. -/
theorem powerOn_sumRight (c : Params) (tape : List CycleIn) : (State.powerOn c tape).SumRight := by
  simp [State.SumRight, powerOn_rstate_eq_iff]

theorem powerOn_linkRight (c : Params) (tape : List CycleIn) : (State.powerOn c tape).LinkRight :=
  iff_of_false Bool.false_ne_true (by simp [powerOn_rstate_eq_iff])

theorem powerOn_absentZero (c : Params) (tape : List CycleIn) : (State.powerOn c tape).AbsentZero :=
  ⟨fun _ => rfl, fun _ => ⟨rfl, rfl⟩, fun _ => rfl, fun _ => rfl, fun _ => ⟨rfl, rfl⟩, fun _ => ⟨rfl, rfl⟩,
    fun _ => rfl⟩

/-- No command is in progress and none has ended. -/
theorem powerOn_commandRight (c : Params) (tape : List CycleIn) : (State.powerOn c tape).CommandRight :=
  ⟨fun busy => (by cases busy), fun _ => ⟨rfl, rfl⟩, fun _ => rfl, Nat.zero_le _, fun _ => rfl⟩

/-- Settles O54, part by part. -/
theorem invariantHoldsAfterReset : Obligations.InvariantHoldsAfterReset := by
  unfold Obligations.InvariantHoldsAfterReset
  intro c tape
  exact ⟨powerOn_legal c tape, powerOn_readerRight c tape, powerOn_sumRight c tape, powerOn_linkRight c tape,
    powerOn_absentZero c tape, powerOn_commandRight c tape⟩

/-! ### One step, one operation -/

/-- Settles O53: a reset cycle keeps the configuration, and the merge takes it from the start of the cycle. -/
theorem configurationIsFixed : Obligations.ConfigurationIsFixed := by
  unfold Obligations.ConfigurationIsFixed
  intro s t hstep
  obtain ⟨-, ⟨-, rfl⟩ | ⟨-, -, q, h, d, r, -, -, -, -, rfl⟩⟩ := runCycle_eq_next hstep
  case inl => exact ⟨rfl, rfl, rfl⟩
  case inr => simp

/-- Settles O26: PBUF ends at index 254. -/
theorem payloadByteBeyondTheBufferStops : Obligations.PayloadByteBeyondTheBufferStops := by
  unfold Obligations.PayloadByteBeyondTheBufferStops
  intro s b hpcnt
  have full : s.rx.pcnt.toNat = 255 := by rw [hpcnt]; rfl
  show execRxPay b s = _
  rw [execRxPay, if_pos full]

end Sys2Proof.Machine
end

section
/-! PROOFS. The store in a cycle (20_memory.md R90; 42_status_decoder.md R199): the FrameReader's unit alone writes the
snapshot and SEQ, and it either leaves the store alone or performs one whole update. -/
namespace Sys2Proof.Machine

/-- A completed frame leaves the store alone or updates all of it. -/
theorem completeFrame_store {f : Frame} {s t : State} (h : completeFrame f s = .next t) :
    t.store = s.store ∨ ∃ n, t.store = (s.storeUpdate n).store := by
  rcases completeFrame_eq_next h with ⟨-, ⟨-, rfl⟩ | ⟨-, rfl⟩ | ⟨-, rfl⟩⟩ | ⟨-, rfl⟩
  case inl.inl => exact .inr ⟨_, rfl⟩
  case inl.inr.inl => exact .inr ⟨_, rfl⟩
  case inl.inr.inr => exact .inl rfl
  case inr => exact .inl rfl

/-- A header byte only writes FrameReader state. -/
theorem execRxHdr_frame {b : Byte} {s t : State} (h : execRxHdr b s = .next t) : t = { s with rx := t.rx } := by
  unfold execRxHdr at h
  dsimp only at h
  split at h <;> cases h <;> rfl

/-- Of the FrameReader's operations only the last byte of a frame can write the store. -/
theorem rxUnit_store {i : CycleIn} {s t : State} (h : runUnit (.rx (s.rxSel i)) s = .next t) :
    t.store = s.store ∨ ∃ n, t.store = (s.storeUpdate n).store := by
  rcases rxUnit_cases h with ⟨-, fail⟩ | ⟨-, -, rfl⟩ | ⟨-, -, -, rfl⟩ | ⟨-, -, -, -, rfl⟩ |
    ⟨-, -, -, ⟨-, hunt⟩ | ⟨-, hdr⟩ | ⟨-, pay⟩ | ⟨-, -, ck0⟩ | ⟨-, -, ck1⟩⟩
  · cases fail
    exact .inl rfl
  · exact .inl rfl
  · exact .inl rfl
  · exact .inl rfl
  · rcases execRxHunt_eq_next hunt with ⟨-, rfl⟩ | ⟨-, rfl⟩ <;> exact .inl rfl
  · rw [execRxHdr_frame hdr]
    exact .inl rfl
  · rw [(execRxPay_eq_next pay).2]
    exact .inl rfl
  · cases ck0
    exact .inl rfl
  · obtain ⟨e, completes, rfl⟩ := execRxCk1_eq_next ck1
    rw [State.hunt_store]
    exact completeFrame_store completes

/-- Settles O46: the dispatcher's unit reaches the merged store only through FRESH, so the FrameReader's unit
decides. -/
theorem snapshotChangesOnlyWithSeqAndFresh : Obligations.SnapshotChangesOnlyWithSeqAndFresh := by
  unfold Obligations.SnapshotChangesOnlyWithSeqAndFresh
  intro s t hstep hrst
  obtain ⟨-, ⟨reset, -⟩ | ⟨-, -, q, h, d, r, -, -, -, reader, rfl⟩⟩ := runCycle_eq_next hstep
  case inl => exact absurd reset (by simp [hrst])
  case inr =>
    rw [State.merge_store]
    rcases rxUnit_store (s := s.beginCycle.forReader h d) reader with kept | ⟨n, updated⟩
    · exact .inl (by simp [kept])
    · exact .inr (by simp [updated])

end Sys2Proof.Machine
end

section
/-! PROOFS. The FrameReader's cycle by itself (20_memory.md R95; 70_reset_and_hazards.md R355): its operations factor
through the part of the state that they depend on, and neither the host's unit nor the dispatcher's unit writes that
part in the state they run on. -/
namespace Sys2Proof.Machine

/-- What the FrameReader's operations depend on, with every other element at its reset value: not the dispatcher, the
completion flags, FRESH, the host's error flags, nor the two counts, which its operations only increment. -/
def State.receiverPart (s : State) : State :=
  { State.reset with
    cfg := s.cfg, ctrl := s.ctrl, rx := s.rx, now := s.now
    store := { s.store with fresh := false }
    diag := { s.diag with cntOk := 0, cntCkerr := 0 }
    err := { State.reset.err with linkFail := s.err.linkFail } }

/-- The receiver's part of an outcome. -/
def onReceiver (o : Host.Outcome State Fault Refusal) : Host.Outcome State Fault Refusal :=
  andThen o fun t => .next t.receiverPart

/-! ### The operations -/

theorem execRxHunt_receiverPart (b : Byte) (s : State) :
    onReceiver (execRxHunt b s.receiverPart) = onReceiver (execRxHunt b s) := by
  dsimp only [execRxHunt, State.receiverPart]
  split <;> rfl

theorem execRxHdr_receiverPart (b : Byte) (s : State) :
    onReceiver (execRxHdr b s.receiverPart) = onReceiver (execRxHdr b s) := by
  dsimp only [execRxHdr, State.receiverPart]
  split <;> rfl

theorem execRxPay_receiverPart (b : Byte) (s : State) :
    onReceiver (execRxPay b s.receiverPart) = onReceiver (execRxPay b s) := by
  dsimp only [execRxPay, State.receiverPart]
  split
  · rfl
  · split <;> rfl

theorem execFrameTelem_receiverPart (f : Frame) (s : State) :
    onReceiver (execFrameTelem f s.receiverPart) = onReceiver (execFrameTelem f s) := by
  dsimp only [execFrameTelem, State.receiverPart]
  split <;> rfl

theorem execFrameStatus_receiverPart (f : Frame) (s : State) :
    onReceiver (execFrameStatus f s.receiverPart) = onReceiver (execFrameStatus f s) := by
  dsimp only [execFrameStatus, State.receiverPart]
  split <;> rfl

theorem completeFrame_receiverPart (f : Frame) (s : State) :
    onReceiver (completeFrame f s.receiverPart) = onReceiver (completeFrame f s) := by
  have sameSum : s.receiverPart.rx.sum = s.rx.sum := rfl
  have sameCfg : s.receiverPart.cfg = s.cfg := rfl
  unfold completeFrame
  rw [sameSum, sameCfg]
  split
  · split
    · exact execFrameTelem_receiverPart f s
    · exact execFrameStatus_receiverPart f s
    · rfl
  · rfl

theorem onReceiver_andThen_hunt (o : Host.Outcome State Fault Refusal) :
    onReceiver (andThen o fun t => .next t.hunt) = andThen (onReceiver o) fun t => .next t.hunt := by
  cases o <;> rfl

theorem execRxCk1_receiverPart (b : Byte) (s : State) :
    onReceiver (execRxCk1 b s.receiverPart) = onReceiver (execRxCk1 b s) := by
  have sameFrame : s.receiverPart.rx.frame b = s.rx.frame b := rfl
  rw [execRxCk1, execRxCk1, onReceiver_andThen_hunt, onReceiver_andThen_hunt, sameFrame, completeFrame_receiverPart]

/-! ### The unit -/

/-- Every operation that the FrameReader's unit can select acts alike on a state and on its receiver's part. -/
theorem exec_receiverPart_of_decodeRx {x : RxSel} {op : Instr} (hd : decodeRx x = .ok op) (s : State) :
    onReceiver (exec op s.receiverPart) = onReceiver (exec op s) := by
  rcases decodeRx_cases hd with ⟨-, rfl⟩ | ⟨-, -, rfl⟩ | ⟨-, -, -, rfl⟩ | ⟨-, -, -, -, rfl⟩ |
    ⟨-, -, -, ⟨-, rfl⟩ | ⟨-, rfl⟩ | ⟨-, rfl⟩ | ⟨-, -, rfl⟩ | ⟨-, -, rfl⟩⟩
  · rfl
  · rfl
  · rfl
  · rfl
  · exact execRxHunt_receiverPart x.data s
  · exact execRxHdr_receiverPart x.data s
  · exact execRxPay_receiverPart x.data s
  · rfl
  · exact execRxCk1_receiverPart x.data s

/-- Two runs of the FrameReader's unit on the same signals, from states with the same receiver's part, end with the same
receiver's part. -/
theorem rxUnit_receiverPart {x : RxSel} {a b t u : State} (hab : a.receiverPart = b.receiverPart)
    (ht : runUnit (.rx x) a = .next t) (hu : runUnit (.rx x) b = .next u) : t.receiverPart = u.receiverPart := by
  obtain ⟨op, hop, hopA⟩ := runUnit_eq_next ht
  have hd : decodeRx x = .ok op := hop
  have hopB : exec op b = .next u := (runUnit_of_decode (code := .rx x) (s := b) hd).symm.trans hu
  have same : onReceiver (exec op a) = onReceiver (exec op b) := by
    rw [← exec_receiverPart_of_decodeRx hd a, hab, exec_receiverPart_of_decodeRx hd b]
  rw [hopA, hopB] at same
  exact Host.Outcome.next.inj same

/-- The host's unit writes no diagnostic but the two counts, so what it hands to the FrameReader's unit has the
receiver's part of the start of the cycle. -/
theorem forReader_receiverPart {i : CycleIn} {s h d : State} (hh : runUnit (State.hostCode i) s = .next h) :
    (s.forReader h d).receiverPart = s.receiverPart := by
  obtain ⟨h', hh', -, -, -, -, -, -, -, diag⟩ := hostUnit_next i s
  obtain rfl : h = h' := Host.Outcome.next.inj (hh.symm.trans hh')
  show { s.receiverPart with diag := { h.diag with cntOk := 0, cntCkerr := 0 } } = s.receiverPart
  rw [diag]
  rfl

/-- The merge takes the receiver's part from the FrameReader's unit, but for CTRL, NOW and the configuration. -/
theorem merge_receiverPart (s q h d r : State) :
    (s.merge q h d r).receiverPart = { r.receiverPart with cfg := s.cfg, ctrl := h.ctrl, now := s.now + 1 } := rfl

/-- Two steps from states with the same receiver's part, under the same reset and the same signals of the FrameReader,
end with the same receiver's part but for CTRL, which the host writes. -/
theorem step_receiverPart {a b t u : State} (hab : a.receiverPart = b.receiverPart)
    (hrst : a.input.rst = b.input.rst) (hsel : a.rxSel a.input = b.rxSel b.input)
    (ht : step a = .next t) (hu : step b = .next u) : t.receiverPart = { u.receiverPart with ctrl := t.ctrl } := by
  have sameCfg : a.cfg = b.cfg := congrArg (·.cfg) hab
  have sameNow : a.now = b.now := congrArg (·.now) hab
  obtain ⟨-, ⟨resetA, rfl⟩ | ⟨runA, -, q, h, d, r, -, hostA, -, readerA, rfl⟩⟩ := runCycle_eq_next ht <;>
    obtain ⟨-, ⟨resetB, rfl⟩ | ⟨runB, -, q', h', d', r', -, hostB, -, readerB, rfl⟩⟩ := runCycle_eq_next hu
  case inl.inl =>
    show (State.powerOn a.cfg []).receiverPart = (State.powerOn b.cfg []).receiverPart
    rw [sameCfg]
  case inl.inr => exact absurd (resetA.symm.trans (hrst.trans runB)) (by decide)
  case inr.inl => exact absurd (resetB.symm.trans (hrst.symm.trans runA)) (by decide)
  case inr.inr =>
    have sameStart : (a.beginCycle.forReader h d).receiverPart = (b.beginCycle.forReader h' d').receiverPart := by
      rw [forReader_receiverPart hostA, forReader_receiverPart hostB]
      exact hab
    have sameSel : b.beginCycle.rxSel b.input = a.beginCycle.rxSel a.input := hsel.symm
    rw [sameSel] at readerB
    rw [merge_receiverPart, merge_receiverPart, rxUnit_receiverPart sameStart readerA readerB]
    simp [sameCfg, sameNow]

/-- Settles O52: neither the dispatcher's state nor the completion flags are in the receiver's part, and the host's and
the transmit port's inputs are not among the FrameReader's signals. -/
theorem receiverIgnoresDispatcherAndHostInACycle : Obligations.ReceiverIgnoresDispatcherAndHostInACycle := by
  unfold Obligations.ReceiverIgnoresDispatcherAndHostInACycle
  intro s t u i j ts dsp res hrst hvalid hdata hfail ht hu
  have sameSel : s.rxSel i = s.rxSel j := by simp only [State.rxSel, hvalid, hdata, hfail]
  have same := step_receiverPart (a := { s with tape := i :: ts })
    (b := { s with tape := j :: ts, dsp := dsp, res := res }) rfl hrst sameSel ht hu
  exact ⟨congrArg (·.rx) same, congrArg (·.store.snap) same, congrArg (·.store.seq) same,
    congrArg (·.err.linkFail) same, congrArg (·.diag.ckRx) same, congrArg (·.diag.ckCalc) same,
    congrArg (·.diag.lfDst) same, congrArg (·.diag.lfSrc) same, congrArg (·.diag.lfCmd) same,
    congrArg (·.diag.lfLen) same⟩

end Sys2Proof.Machine
end

section
/-! PROOFS. Command words by their fields (30_encoding.md R112 to R116): a word whose value is made of the operation code
and the operands of a row decodes to that row, and a word is illegal exactly by (a) to (d) of R116. -/
namespace Sys2Proof

open Machine

/-- Bits `i` to `i + n - 1` of a word as arithmetic. -/
theorem field_toNat {m : Nat} (w : BitVec m) (i n : Nat) : (w.extractLsb' i n).toNat = w.toNat / 2 ^ i % 2 ^ n := by
  rw [BitVec.extractLsb'_toNat, Nat.shiftRight_eq_div_pow]

theorem field_eq {m n : Nat} {w : BitVec m} {i : Nat} {v : BitVec n} (h : w.toNat / 2 ^ i % 2 ^ n = v.toNat) :
    w.extractLsb' i n = v :=
  BitVec.eq_of_toNat_eq ((field_toNat w i n).trans h)

theorem field_eq_zero_iff {m : Nat} (w : BitVec m) (i n : Nat) :
    w.extractLsb' i n = 0 ↔ w.toNat / 2 ^ i % 2 ^ n = 0 := by
  rw [← BitVec.toNat_inj, field_toNat]
  rfl

theorem flag_eq {m : Nat} {w : BitVec m} {i : Nat} {b : Bool} (h : w.toNat / 2 ^ i % 2 = b.toNat) :
    w.getLsbD i = b := by
  rw [getLsbD_eq_decide, h]
  cases b <;> rfl

/-! ### The rows of host_cmd16 -/

theorem decodeCmd_nop {w : Half} (hw : w.toNat = 0) : decodeCmd w = .nop := by
  rw [BitVec.eq_of_toNat_eq (y := 0#16) hw]
  rfl

theorem decodeCmd_illegalNop {w : Half} {rsv : BitVec 12} (hw : w.toNat = rsv.toNat) (hr : rsv ≠ 0) :
    decodeCmd w = .illegalNop rsv := by
  have := rsv.isLt
  have op : (w.extractLsb' 12 4).toNat = 0 := by rw [field_toNat]; omega
  have low : w.extractLsb' 0 12 = rsv := field_eq (by omega)
  unfold decodeCmd
  rw [if_pos op, low, if_neg hr]

theorem decodeCmd_setf {w : Half} {st : Bool} {feat : BitVec 4} (hw : w.toNat = 4096 + 16 * st.toNat + feat.toNat)
    (hf : feat.toNat < 9) : decodeCmd w = .setf st feat := by
  have := st.toNat_lt
  have op : (w.extractLsb' 12 4).toNat = 1 := by rw [field_toNat]; omega
  have on : w.getLsbD 4 = st := flag_eq (by omega)
  have idx : w.extractLsb' 0 4 = feat := field_eq (by omega)
  have legal : w.extractLsb' 5 7 = 0 ∧ (w.extractLsb' 0 4).toNat < Config.nFeatures :=
    ⟨(field_eq_zero_iff w 5 7).mpr (by omega), idx ▸ hf⟩
  unfold decodeCmd
  rw [if_neg (by omega), if_pos op, if_pos legal, on, idx]

theorem decodeCmd_illegalSetf {w : Half} {rsv : BitVec 7} {st : Bool} {feat : BitVec 4}
    (hw : w.toNat = 4096 + 32 * rsv.toNat + 16 * st.toNat + feat.toNat) (hr : rsv ≠ 0 ∨ 9 ≤ feat.toNat) :
    decodeCmd w = .illegalSetf rsv st feat := by
  have := st.toNat_lt
  have := feat.isLt
  have := rsv.isLt
  have op : (w.extractLsb' 12 4).toNat = 1 := by rw [field_toNat]; omega
  have reserved : w.extractLsb' 5 7 = rsv := field_eq (by omega)
  have on : w.getLsbD 4 = st := flag_eq (by omega)
  have idx : w.extractLsb' 0 4 = feat := field_eq (by omega)
  have illegal : ¬ (rsv = 0 ∧ feat.toNat < Config.nFeatures) := fun ⟨hz, hf⟩ => hr.elim (· hz) (Nat.not_le_of_lt hf)
  unfold decodeCmd
  rw [if_neg (by omega), if_pos op, reserved, idx, if_neg illegal, on]

theorem decodeCmd_clr {w : Half} {cnt err done : Bool}
    (hw : w.toNat = 8192 + 4 * cnt.toNat + 2 * err.toNat + done.toNat) : decodeCmd w = .clr cnt err done := by
  have := cnt.toNat_lt
  have := err.toNat_lt
  have := done.toNat_lt
  have op : (w.extractLsb' 12 4).toNat = 2 := by rw [field_toNat]; omega
  have reserved : w.extractLsb' 3 9 = 0 := (field_eq_zero_iff w 3 9).mpr (by omega)
  have clrCnt : w.getLsbD 2 = cnt := flag_eq (by omega)
  have clrErr : w.getLsbD 1 = err := flag_eq (by omega)
  have clrDone : w.getLsbD 0 = done := flag_eq (by omega)
  unfold decodeCmd
  rw [if_neg (by omega), if_neg (by omega), if_pos op, if_pos reserved, clrCnt, clrErr, clrDone]

theorem decodeCmd_illegalClr {w : Half} {rsv : BitVec 9} {low : BitVec 3}
    (hw : w.toNat = 8192 + 8 * rsv.toNat + low.toNat) (hr : rsv ≠ 0) : decodeCmd w = .illegalClr rsv low := by
  have := rsv.isLt
  have := low.isLt
  have op : (w.extractLsb' 12 4).toNat = 2 := by rw [field_toNat]; omega
  have reserved : w.extractLsb' 3 9 = rsv := field_eq (by omega)
  have rest : w.extractLsb' 0 3 = low := field_eq (by omega)
  unfold decodeCmd
  rw [if_neg (by omega), if_neg (by omega), if_pos op, reserved, if_neg hr, rest]

theorem decodeCmd_illegalOp3 {w : Half} {rest : BitVec 12} (hw : w.toNat = 12288 + rest.toNat) :
    decodeCmd w = .illegalOp3 rest := by
  have := rest.isLt
  have op : (w.extractLsb' 12 4).toNat = 3 := by rw [field_toNat]; omega
  have low : w.extractLsb' 0 12 = rest := field_eq (by omega)
  unfold decodeCmd
  rw [if_neg (by omega), if_neg (by omega), if_neg (by omega), if_pos op, low]

/-- The row OP4_7 has a pattern of two fixed bits. -/
theorem decodeCmd_illegalOp4to7 {w : Half} {rest : BitVec 14} (hw : w.toNat = 16384 + rest.toNat) :
    decodeCmd w = .illegalOp4to7 rest := by
  have := rest.isLt
  have op := field_toNat w 12 4
  have low : w.extractLsb' 0 14 = rest := field_eq (by omega)
  unfold decodeCmd
  rw [if_neg (by omega), if_neg (by omega), if_neg (by omega), if_neg (by omega), if_pos (by omega), low]

/-- The row OP8_F has a pattern of one fixed bit. -/
theorem decodeCmd_illegalOp8toF {w : Half} {rest : BitVec 15} (hw : w.toNat = 32768 + rest.toNat) :
    decodeCmd w = .illegalOp8toF rest := by
  have := rest.isLt
  have op := field_toNat w 12 4
  have low : w.extractLsb' 0 15 = rest := field_eq (by omega)
  unfold decodeCmd
  rw [if_neg (by omega), if_neg (by omega), if_neg (by omega), if_neg (by omega), if_neg (by omega), low]

/-! ### The illegal words -/

theorem illegalWord_iff (w : Half) : illegalWord w = true ↔
    3 ≤ w.toNat / 4096 ∨ (w.toNat / 4096 = 0 ∧ w.toNat % 4096 ≠ 0) ∨
      (w.toNat / 4096 = 1 ∧ (w.toNat / 32 % 128 ≠ 0 ∨ 9 ≤ w.toNat % 16)) ∨
      (w.toNat / 4096 = 2 ∧ w.toNat / 8 % 512 ≠ 0) := by
  have op : w.toNat / 2 ^ 12 % 2 ^ 4 = w.toNat / 4096 := by
    have := w.isLt
    omega
  simp only [illegalWord, Bool.or_eq_true, Bool.and_eq_true, beq_iff_eq, bne_iff_ne, decide_eq_true_eq, ne_eq,
    field_eq_zero_iff, field_toNat, op, pow_zero, Nat.div_one, or_assoc]
  rfl

/-- A legal word has a next state in which ILLEGAL_OP is not newly set: NOP, SETF and CLR do not write it but to clear
it (44_host_interface.md R275 to R277). -/
theorem execRegWriteCmd_of_legal {w : Half} (hw : ¬ illegalWord w = true) (s : State) :
    ∃ t, execRegWriteCmd w s = .next t ∧ (t.err.illegalOp = true → s.err.illegalOp = true) := by
  rcases execRegWriteCmd_cases w s with ⟨hi, -⟩ | ⟨-, -, nop⟩ | ⟨-, -, -, start⟩ | ⟨-, -, -, overrun⟩ | ⟨-, -, -, clr⟩
  · exact absurd hi hw
  · exact ⟨_, nop, id⟩
  · exact ⟨_, start, id⟩
  · exact ⟨_, overrun, id⟩
  · refine ⟨_, clr, ?_⟩
    cases w.getLsbD 1
    case false => exact id
    case true => exact fun h => nomatch h

/-! ### The statements -/

/-- Settles O2: each word is the sum of its row's operation code and operands. -/
theorem commandWordsDecodeAsWritten : Obligations.CommandWordsDecodeAsWritten := by
  unfold Obligations.CommandWordsDecodeAsWritten
  exact ⟨decodeCmd_nop rfl, decodeCmd_setf rfl (by decide), decodeCmd_setf rfl (by decide), decodeCmd_clr rfl,
    decodeCmd_clr rfl, decodeCmd_illegalSetf rfl (.inr (by decide)), decodeCmd_illegalSetf rfl (.inl (by decide)),
    decodeCmd_illegalNop rfl (by decide), decodeCmd_illegalClr rfl (by decide), decodeCmd_illegalOp3 rfl,
    decodeCmd_illegalOp4to7 rfl, decodeCmd_illegalOp8toF rfl⟩

/-- Settles O3: the condition of R116 is `illegalWord`, the first branch of a write to CMD; no other branch sets
ILLEGAL_OP. -/
theorem illegalWordsAreExactlyThoseOfR116 : Obligations.IllegalWordsAreExactlyThoseOfR116 := by
  unfold Obligations.IllegalWordsAreExactlyThoseOfR116
  intro w s op illegal
  have illegal_iff : illegalWord w = true ↔ illegal := illegalWord_iff w
  refine ⟨fun h => ?isIllegal, fun h => execRegWriteCmd_of_legal (h ∘ illegal_iff.mp) s⟩
  case isIllegal => exact if_pos (illegal_iff.mpr h)

end Sys2Proof
end

section
/-! PROOFS. The encoder and the decoder agree on every row of the opcode table: decoding the code of a
well-formed operation gives the operation back. -/
namespace Sys2Proof

/-! ### Frames and their bytes -/

theorem Frame.lenOk_iff (f : Frame) : f.lenOk = true ↔ f.payload.length = f.len.toNat := beq_iff_eq

theorem Frame.valid_iff (f : Frame) : f.valid = true ↔ f.ck = cksum f.summed := beq_iff_eq

/-- Preamble, header and exactly LEN + 2 further bytes are a frame (30_encoding.md R100, R104). -/
theorem decodeFrame_of_length {c : Params} {dst src cmd len : Byte} {rest : List Byte}
    (hl : rest.length = len.toNat + Config.ckLen) :
    decodeFrame c (c.preamble.toList ++ dst :: src :: cmd :: len :: rest) =
      .ok (frameInstr c { dst := dst, src := src, cmd := cmd, len := len, payload := rest.take len.toNat,
                          ckh := rest.getD len.toNat 0, ckl := rest.getD (len.toNat + 1) 0 }) :=
  (if_pos rfl).trans (if_pos hl)

/-- Reading the bytes of a frame with exactly LEN payload bytes finds its fields again. -/
theorem decode_frame_bytes (c : Params) {f : Frame} (hl : f.lenOk = true) :
    decode c (.frame (f.bytes c)) = .ok (frameInstr c f) := by
  obtain ⟨dst, src, cmd, len, payload, ckh, ckl⟩ := f
  have payloadLength : len.toNat = payload.length := ((Frame.lenOk_iff _).mp hl).symm
  have total : (payload ++ [ckh, ckl]).length = len.toNat + Config.ckLen := by
    rw [payloadLength, List.length_append]
    rfl
  calc decodeFrame c (c.preamble.toList ++ dst :: src :: cmd :: len :: (payload ++ [ckh, ckl]))
    _ = _ := decodeFrame_of_length total
    _ = .ok (frameInstr c ⟨dst, src, cmd, len, payload, ckh, ckl⟩) := by
      simp [payloadLength]

theorem decode_telem_bytes {c : Params} {f : Frame} (hl : f.lenOk = true) (hv : f.valid = true)
    (hk : f.kind c = .telem) : decode c (.frame (f.bytes c)) = .ok (.frameTelem f) := by
  rw [decode_frame_bytes c hl, frameInstr, if_pos hv, hk]

theorem decode_status_bytes {c : Params} {f : Frame} (hl : f.lenOk = true) (hv : f.valid = true)
    (hk : f.kind c = .status) : decode c (.frame (f.bytes c)) = .ok (.frameStatus f) := by
  rw [decode_frame_bytes c hl, frameInstr, if_pos hv, hk]

theorem decode_skip_bytes {c : Params} {f : Frame} (hl : f.lenOk = true) (hv : f.valid = true)
    (hk : f.kind c = .skip) : decode c (.frame (f.bytes c)) = .ok (.frameSkip f) := by
  rw [decode_frame_bytes c hl, frameInstr, if_pos hv, hk]

theorem decode_badck_bytes (c : Params) {f : Frame} (hl : f.lenOk = true) (hv : ¬ f.valid = true) :
    decode c (.frame (f.bytes c)) = .ok (.frameBadck f) := by
  rw [decode_frame_bytes c hl, frameInstr, if_neg hv]

/-! ### The round trip, format by format -/

/-- The rows of format host_cmd16: the code's value is the sum that the row's decoding lemma asks for. -/
theorem decode_encode_hostCmd16 (c : Params) {i : Instr} (hf : Laws.rowFormat i = .hostCmd16) (hi : i.wf c = true) :
    decode c (encode c i) = .ok i := by
  cases i
  case nop => exact congrArg Except.ok (decodeCmd_nop rfl)
  case setf st feat =>
    refine congrArg Except.ok (decodeCmd_setf ?_ (of_decide_eq_true hi))
    simp only [toNat_append_add, BitVec.toNat_ofBool, BitVec.toNat_ofNat]
    omega
  case clr cnt err done =>
    refine congrArg Except.ok (decodeCmd_clr ?_)
    simp only [toNat_append_add, BitVec.toNat_ofBool, BitVec.toNat_ofNat]
    omega
  case illegalNop rsv =>
    refine congrArg Except.ok (decodeCmd_illegalNop ?_ (bne_iff_ne.mp hi))
    simp only [toNat_append_add, BitVec.toNat_ofNat]
    omega
  case illegalSetf rsv st feat =>
    have illegal : rsv ≠ 0 ∨ 9 ≤ feat.toNat := by
      simpa only [Instr.wf, Bool.or_eq_true, bne_iff_ne, decide_eq_true_eq] using hi
    refine congrArg Except.ok (decodeCmd_illegalSetf ?_ illegal)
    simp only [toNat_append_add, BitVec.toNat_ofBool, BitVec.toNat_ofNat]
    omega
  case illegalClr rsv low =>
    refine congrArg Except.ok (decodeCmd_illegalClr ?_ (bne_iff_ne.mp hi))
    simp only [toNat_append_add, BitVec.toNat_ofNat]
    omega
  case illegalOp3 rest =>
    refine congrArg Except.ok (decodeCmd_illegalOp3 ?_)
    simp only [toNat_append_add, BitVec.toNat_ofNat]
    omega
  case illegalOp4to7 rest =>
    refine congrArg Except.ok (decodeCmd_illegalOp4to7 ?_)
    simp only [toNat_append_add, BitVec.toNat_ofNat]
    omega
  case illegalOp8toF rest =>
    refine congrArg Except.ok (decodeCmd_illegalOp8toF ?_)
    simp only [toNat_append_add, BitVec.toNat_ofNat]
    omega
  all_goals cases hf

/-- The rows of format host_addr5: only REG_WRITE.OTHER asks something of its address. -/
theorem decode_encode_hostAddr5 (c : Params) {i : Instr} (hf : Laws.rowFormat i = .hostAddr5) (hi : i.wf c = true) :
    decode c (encode c i) = .ok i := by
  cases i
  case regRead | regWriteCtrl | regWriteCmd => rfl
  case regWriteOther addr v =>
    have ⟨notCtrl, notCmd⟩ : addr ≠ 0 ∧ addr ≠ 1 := by
      simpa only [Instr.wf, Bool.and_eq_true, bne_iff_ne] using hi
    show Except.ok (decodeHost true addr v) = _
    rw [decodeHost, if_pos rfl, if_neg notCtrl, if_neg notCmd]
  all_goals cases hf

/-- The rows of format rx_sel4: a row's code is a selector that reaches exactly its condition of R140. -/
theorem decode_encode_rxSel4 (c : Params) {i : Instr} (hf : Laws.rowFormat i = .rxSel4) :
    decode c (encode c i) = .ok i := by
  cases i
  case rxFail | rxDead | rxOff | rxNone | rxHunt | rxHdr | rxPay | rxCk0 | rxCk1 => rfl
  all_goals cases hf

/-- The rows of format bus_frame. -/
theorem decode_encode_busFrame (c : Params) {i : Instr} (hf : Laws.rowFormat i = .busFrame) (hi : i.wf c = true) :
    decode c (encode c i) = .ok i := by
  cases i
  case frameTelem f =>
    simp only [Instr.wf, Bool.and_eq_true, beq_iff_eq] at hi
    obtain ⟨⟨lenOk, valid⟩, kind⟩ := hi
    exact decode_telem_bytes lenOk valid kind
  case frameStatus f =>
    simp only [Instr.wf, Bool.and_eq_true, beq_iff_eq] at hi
    obtain ⟨⟨lenOk, valid⟩, kind⟩ := hi
    exact decode_status_bytes lenOk valid kind
  case frameSkip f =>
    simp only [Instr.wf, Bool.and_eq_true, beq_iff_eq] at hi
    obtain ⟨⟨lenOk, valid⟩, kind⟩ := hi
    exact decode_skip_bytes lenOk valid kind
  case frameBadck f =>
    simp only [Instr.wf, Bool.and_eq_true, Bool.not_eq_true'] at hi
    obtain ⟨lenOk, invalid⟩ := hi
    exact decode_badck_bytes c lenOk (ne_true_of_eq_false invalid)
  all_goals cases hf

/-- The one row of format bus_frame_tx. -/
theorem decode_encode_busFrameTx (c : Params) {i : Instr} (hf : Laws.rowFormat i = .busFrameTx) (hi : i.wf c = true) :
    decode c (encode c i) = .ok i := by
  cases i
  case cmdFrame feat st => exact if_pos (of_decide_eq_true hi)
  all_goals cases hf

/-- The rows of format dsp_sel2: DSP.WALL_TIMEOUT is one row for TX and for WAIT. -/
theorem decode_encode_dspSel2 (c : Params) {i : Instr} (hf : Laws.rowFormat i = .dspSel2) (hi : i.wf c = true) :
    decode c (encode c i) = .ok i := by
  cases i
  case dspIdle | dspStart | dspTxEnd | dspSuccess | dspRetry | dspExhaust | dspWait => rfl
  case dspTx ready => cases ready <;> rfl
  case dspWallTimeout d =>
    have tx_or_wait : d = 1 ∨ d = 2 := by simpa only [Instr.wf, Bool.or_eq_true, beq_iff_eq] using hi
    rcases tx_or_wait with rfl | rfl <;> rfl
  all_goals cases hf

/-- Settles O1, by the format of the operation's row. -/
theorem decodeInvertsEncode : Obligations.DecodeInvertsEncode := by
  unfold Obligations.DecodeInvertsEncode
  intro c i hi
  cases hf : Laws.rowFormat i with
  | hostCmd16 => exact decode_encode_hostCmd16 c hf hi
  | hostAddr5 => exact decode_encode_hostAddr5 c hf hi
  | rxSel4 => exact decode_encode_rxSel4 c hf
  | busFrame => exact decode_encode_busFrame c hf hi
  | busFrameTx => exact decode_encode_busFrameTx c hf hi
  | dspSel2 => exact decode_encode_dspSel2 c hf hi

end Sys2Proof
end

section
/-! PROOFS. The pseudo-directives of 30_encoding.md R119 send the words and the frames of the operations they name. -/
namespace Sys2Proof

open Machine

/-! ### The class of a frame, and what its checksum bytes make of it -/

theorem Frame.kind_telem {c : Params} {f : Frame}
    (h : f.src = c.addrPump ∧ f.cmd = c.cmdTelem ∧ f.len.toNat + 10 = c.telemFrameLen) : f.kind c = .telem :=
  if_pos (by rwa [flen_eq])

theorem Frame.kind_status {c : Params} {f : Frame}
    (h : ¬ (f.src = c.addrPump ∧ f.cmd = c.cmdTelem ∧ f.len.toNat + 10 = c.telemFrameLen)) (hl : 8 < f.len.toNat) :
    f.kind c = .status :=
  (if_neg (by rwa [flen_eq])).trans (if_pos hl)

theorem Frame.kind_skip {c : Params} {f : Frame}
    (h : ¬ (f.src = c.addrPump ∧ f.cmd = c.cmdTelem ∧ f.len.toNat + 10 = c.telemFrameLen)) (hl : f.len.toNat ≤ 8) :
    f.kind c = .skip :=
  (if_neg (by rwa [flen_eq])).trans (if_neg (Nat.not_lt_of_le hl))

/-- A valid frame has one low checksum byte: with any other it is rejected. -/
theorem Frame.not_valid_of_ckl_ne {f : Frame} {b : Byte} (hv : f.valid = true) (hb : b ≠ f.ckl) :
    ¬ ({ f with ckl := b } : Frame).valid = true := by
  intro changed
  have sameCk : beHalf f.ckh b = beHalf f.ckh f.ckl :=
    ((Frame.valid_iff _).mp changed).trans ((Frame.valid_iff f).mp hv).symm
  have sameValue := congrArg BitVec.toNat sameCk
  rw [beHalf_toNat, beHalf_toNat] at sameValue
  exact hb (BitVec.eq_of_toNat_eq (Nat.add_left_cancel sameValue))

theorem xor_one_ne (b : Byte) : b ^^^ 1 ≠ b := by
  revert b
  decide

/-! ### The frame that FRAME sends -/

theorem length_ofNat_toNat {payload : List Byte} (hp : payload.length ≤ 255) :
    (BitVec.ofNat 8 payload.length).toNat = payload.length := by
  rw [BitVec.toNat_ofNat]
  omega

theorem framed_lenOk (dst src cmd : Byte) {payload : List Byte} (hp : payload.length ≤ 255) :
    (framed dst src cmd payload).lenOk = true :=
  (Frame.lenOk_iff _).mpr (length_ofNat_toNat hp).symm

theorem framed_valid (dst src cmd : Byte) (payload : List Byte) : (framed dst src cmd payload).valid = true :=
  (Frame.valid_iff _).mpr (beHalf_hi_lo _)

theorem hiByte_eq_ofNat (v : Half) : hiByte v = BitVec.ofNat 8 (v.toNat / 256) := by
  rw [← hiByte_toNat, BitVec.ofNat_toNat, BitVec.setWidth_eq]

theorem loByte_eq_ofNat (v : Half) : loByte v = BitVec.ofNat 8 (v.toNat % 256) := by
  rw [← loByte_toNat, BitVec.ofNat_toNat, BitVec.setWidth_eq]

/-- The checksum of header and payload as R119 asks for it, LEN counted as the payload's length. -/
theorem framed_sum (dst src cmd : Byte) {payload : List Byte} (hp : payload.length ≤ 255) :
    (cksum ([dst, src, cmd, BitVec.ofNat 8 payload.length] ++ payload)).toNat =
      (dst.toNat + src.toNat + cmd.toNat + payload.length + (payload.map BitVec.toNat).sum) % 65536 := by
  rw [cksum_toNat]
  simp only [List.cons_append, List.nil_append, List.map_cons, List.sum_cons, length_ofNat_toNat hp, Nat.add_assoc]

/-! ### The words -/

theorem Feature.index_lt (f : Feature) : f.index.toNat < 9 := by
  cases f <;> decide

theorem setf_word_toNat (f : Feature) (on : Bool) :
    (BitVec.ofNat 16 (0x1000 + 16 * on.toNat + f.index.toNat)).toNat = 4096 + 16 * on.toNat + f.index.toNat := by
  have := f.index_lt
  have := on.toNat_lt
  rw [BitVec.toNat_ofNat]
  omega

theorem setFeature_eq (f : Feature) (on : Bool) :
    Directive.setFeature f on = .wr 1 (BitVec.ofNat 16 (0x1000 + 16 * on.toNat + f.index.toNat)) := by
  cases on <;> cases f <;> rfl

theorem clr_word_toNat (done err cnt : Bool) :
    (BitVec.ofNat 16 (0x2000 + done.toNat + 2 * err.toNat + 4 * cnt.toNat)).toNat =
      8192 + 4 * cnt.toNat + 2 * err.toNat + done.toNat := by
  have := done.toNat_lt
  have := err.toNat_lt
  have := cnt.toNat_lt
  rw [BitVec.toNat_ofNat]
  omega

theorem clear_eq (done err cnt : Bool) :
    Directive.clear done err cnt = .wr 1 (BitVec.ofNat 16 (0x2000 + done.toNat + 2 * err.toNat + 4 * cnt.toNat)) := by
  cases done <;> cases err <;> cases cnt <;> rfl

/-- Settles O60: the words by `decodeCmd_setf`, `decodeCmd_clr` and `decodeCmd_nop`; the frame that FRAME sends has LEN
payload bytes and is valid, so its class decides, and with another CKL it is rejected. -/
theorem pseudoDirectivesAreTheirOperations : Obligations.PseudoDirectivesAreTheirOperations := by
  unfold Obligations.PseudoDirectivesAreTheirOperations
  refine ⟨fun f on => ⟨setFeature_eq f on, decodeCmd_setf (setf_word_toNat f on) f.index_lt⟩,
    fun done err cnt => ⟨clear_eq done err cnt, decodeCmd_clr (clr_word_toNat done err cnt)⟩,
    ⟨rfl, decodeCmd_nop rfl⟩, ?frames⟩
  case frames =>
    intro c dst src cmd payload hp len sum ckh ckl front good telem
    have sent : framed dst src cmd payload = good := by
      simp only [framed, hiByte_eq_ofNat, loByte_eq_ofNat, framed_sum dst src cmd hp]
      rfl
    have lenOk : good.lenOk = true := sent ▸ framed_lenOk dst src cmd hp
    have valid : good.valid = true := sent ▸ framed_valid dst src cmd payload
    have rejected := Frame.not_valid_of_ckl_ne valid (xor_one_ne ckl)
    have length : good.len.toNat = payload.length := length_ofNat_toNat hp
    have telem_iff : telem ↔ good.src = c.addrPump ∧ good.cmd = c.cmdTelem ∧ good.len.toNat + 10 = c.telemFrameLen := by
      rw [length]
    refine ⟨?sends, fun h => ?telem, fun h long => ?status, fun h short => ?skip, ?sendsBad, ?badck⟩
    case sends => exact congrArg (fun f => Directive.rx (f.bytes c)) sent
    case telem => exact decode_telem_bytes lenOk valid (Frame.kind_telem (telem_iff.mp h))
    case status => exact decode_status_bytes lenOk valid (Frame.kind_status (h ∘ telem_iff.mpr) (length ▸ long))
    case skip => exact decode_skip_bytes lenOk valid (Frame.kind_skip (h ∘ telem_iff.mpr) (length ▸ short))
    case sendsBad => exact congrArg (fun f : Frame => Directive.rx ({ f with ckl := f.ckl ^^^ 1 }.bytes c)) sent
    case badck => exact decode_badck_bytes c (f := { good with ckl := ckl ^^^ 1 }) lenOk rejected

end Sys2Proof
end

section
/-! PROOFS. The FrameReader's operations one at a time (40_frame_reader.md R140 to R148): the condition of each row
selects it, and each operation's next state. -/
namespace Sys2Proof.Machine

/-! ### The selection -/

theorem decodeRx_fail {x : RxSel} (failed : x.chanFail = true) : decodeRx x = .ok .rxFail := if_pos failed

section
variable {x : RxSel} (intact : x.chanFail = false)
include intact

theorem decodeRx_dead (dead : x.rstate = 4) : decodeRx x = .ok .rxDead := by
  simp [decodeRx, intact, dead]

theorem decodeRx_off (alive : x.rstate ≠ 4) (off : x.rxEn = false) : decodeRx x = .ok .rxOff := by
  rw [decodeRx, if_neg (by simp [intact]), if_neg alive, if_pos (by simp [off])]

variable (on : x.rxEn = true)
include on

theorem decodeRx_none (alive : x.rstate ≠ 4) (silent : x.rxValid = false) : decodeRx x = .ok .rxNone := by
  rw [decodeRx, if_neg (by simp [intact]), if_neg alive, if_neg (by simp [on]), if_pos (by simp [silent])]

variable (taking : x.rxValid = true)
include taking

theorem decodeRx_hunt (hs : x.rstate = 0) : decodeRx x = .ok (.rxHunt x.data) := by
  simp [decodeRx, intact, on, taking, hs]

theorem decodeRx_hdr (hs : x.rstate = 1) : decodeRx x = .ok (.rxHdr x.data) := by
  simp [decodeRx, intact, on, taking, hs]

theorem decodeRx_pay (hs : x.rstate = 2) : decodeRx x = .ok (.rxPay x.data) := by
  simp [decodeRx, intact, on, taking, hs]

theorem decodeRx_ck0 (hs : x.rstate = 3) (hk : x.kcnt = 0) : decodeRx x = .ok (.rxCk0 x.data) := by
  simp [decodeRx, intact, on, taking, hs, hk]

theorem decodeRx_ck1 (hs : x.rstate = 3) (hk : x.kcnt = 1) : decodeRx x = .ok (.rxCk1 x.data) := by
  simp [decodeRx, intact, on, taking, hs, hk]

end

/-- Settles O6, row by row. -/
theorem readerSelectionFollowsItsOrder : Obligations.ReaderSelectionFollowsItsOrder := by
  unfold Obligations.ReaderSelectionFollowsItsOrder
  intro c x live taking
  refine ⟨decodeRx_fail, fun ⟨intact, dead⟩ => decodeRx_dead intact dead,
    fun ⟨⟨intact, alive⟩, off⟩ => decodeRx_off intact alive off,
    fun ⟨⟨intact, alive⟩, on, silent⟩ => decodeRx_none intact on alive silent, ?hunt, ?hdr, ?pay, ?ck0, ?ck1⟩
  case hunt => exact fun ⟨⟨⟨intact, _⟩, on, valid⟩, hs⟩ => decodeRx_hunt intact on valid hs
  case hdr => exact fun ⟨⟨⟨intact, _⟩, on, valid⟩, hs⟩ => decodeRx_hdr intact on valid hs
  case pay => exact fun ⟨⟨⟨intact, _⟩, on, valid⟩, hs⟩ => decodeRx_pay intact on valid hs
  case ck0 => exact fun ⟨⟨⟨intact, _⟩, on, valid⟩, hs, hk⟩ => decodeRx_ck0 intact on valid hs hk
  case ck1 => exact fun ⟨⟨⟨intact, _⟩, on, valid⟩, hs, hk⟩ => decodeRx_ck1 intact on valid hs hk

/-- Settles O22: RX.OFF writes what `State.hunt` writes. -/
theorem receiverOffHuntsAndNoByteChangesNothing : Obligations.ReceiverOffHuntsAndNoByteChangesNothing := by
  unfold Obligations.ReceiverOffHuntsAndNoByteChangesNothing
  exact fun _ => ⟨rfl, rfl⟩

/-! ### The window -/

theorem fillUp_eq_ofNat (n : BitVec 3) : fillUp n = BitVec.ofNat 3 (min (n.toNat + 1) 4) := by
  rw [← fillUp_toNat, BitVec.ofNat_toNat, BitVec.setWidth_eq]

theorem fillUp_eq_four_iff (n : BitVec 3) : fillUp n = 4 ↔ min (n.toNat + 1) 4 = 4 := by
  rw [← fillUp_toNat, ← BitVec.toNat_inj]
  rfl

theorem execRxHunt_of_match {b : Byte} {s : State}
    (h : fillUp s.rx.wfill = 4 ∧ shiftIn s.rx.win b = s.cfg.preamble) :
    execRxHunt b s = .next { s with
      rx := { s.rx with
        win := shiftIn s.rx.win b, wfill := fillUp s.rx.wfill, rstate := rHdr, hcnt := 0, sum := 0 } } :=
  if_pos h

theorem execRxHunt_of_no_match {b : Byte} {s : State}
    (h : ¬ (fillUp s.rx.wfill = 4 ∧ shiftIn s.rx.win b = s.cfg.preamble)) :
    execRxHunt b s = .next { s with
      rx := { s.rx with win := shiftIn s.rx.win b, wfill := fillUp s.rx.wfill }
      events := s.events ++ [.framingError] } :=
  if_neg h

/-- Settles O23: WFILL counts the bytes in the window up to four. -/
theorem huntSynchronizesOnTheFullWindow : Obligations.HuntSynchronizesOnTheFullWindow := by
  unfold Obligations.HuntSynchronizesOnTheFullWindow
  intro s b w fill
  have synced : (fillUp s.rx.wfill = 4 ∧ shiftIn s.rx.win b = s.cfg.preamble) ↔ (fill = 4 ∧ w = s.cfg.preamble) :=
    and_congr_left' (fillUp_eq_four_iff s.rx.wfill)
  have filled : BitVec.ofNat 3 fill = fillUp s.rx.wfill := (fillUp_eq_ofNat s.rx.wfill).symm
  rw [filled]
  exact ⟨fun h => execRxHunt_of_match (synced.mpr h), fun h => execRxHunt_of_no_match (h ∘ synced.mp)⟩

/-! ### The header -/

section
variable {b : Byte} {s : State}

theorem execRxHdr_dst (h : s.rx.hcnt = 0) :
    execRxHdr b s = .next { s with rx := { s.rx with fDst := b, sum := addByte s.rx.sum b, hcnt := 1 } } := by
  simp [execRxHdr, h]

theorem execRxHdr_src (h : s.rx.hcnt = 1) :
    execRxHdr b s = .next { s with rx := { s.rx with fSrc := b, sum := addByte s.rx.sum b, hcnt := 2 } } := by
  simp [execRxHdr, h]

theorem execRxHdr_cmd (h : s.rx.hcnt = 2) :
    execRxHdr b s = .next { s with rx := { s.rx with fCmd := b, sum := addByte s.rx.sum b, hcnt := 3 } } := by
  simp [execRxHdr, h]

theorem execRxHdr_len (h : s.rx.hcnt = 3) :
    execRxHdr b s = .next { s with
      rx := { s.rx with
        fLen := b, sum := addByte s.rx.sum b, pcnt := 0, kcnt := 0, rstate := if b = 0 then rCk else rPay } } := by
  simp [execRxHdr, h]

end

/-- Settles O24, by HCNT. -/
theorem headerBytesAreStoredAndSummed : Obligations.HeaderBytesAreStoredAndSummed := by
  unfold Obligations.HeaderBytesAreStoredAndSummed
  intro s b sum
  have added : sum = addByte s.rx.sum b := (addByte_eq_ofNat s.rx.sum b).symm
  rw [added]
  exact ⟨execRxHdr_dst, execRxHdr_src, execRxHdr_cmd, execRxHdr_len⟩

/-! ### The payload -/

/-- With a slot for it, a payload byte is stored and summed; after the last one the checksum follows. -/
theorem execRxPay_of_lt {b : Byte} {s : State} (slot : s.rx.pcnt.toNat < 255) :
    execRxPay b s = .next { s with rx := { s.rx with
      pbuf := s.rx.pbuf.write s.rx.pcnt.toNat b, sum := addByte s.rx.sum b, pcnt := s.rx.pcnt + 1
      rstate := if s.rx.pcnt.toNat + 1 = s.rx.fLen.toNat then rCk else s.rx.rstate
      kcnt := if s.rx.pcnt.toNat + 1 = s.rx.fLen.toNat then 0 else s.rx.kcnt } } := by
  unfold execRxPay
  dsimp only
  rw [if_neg (Nat.ne_of_lt slot)]
  split <;> rfl

/-- The write reads back at its index and nowhere else. -/
theorem Pbuf.read_write {m : Pbuf} (hm : m.wf = true) (i j : Nat) (b : Byte) :
    (m.write i b).read j = if j = i then b else m.read j := by
  split
  case isTrue same => rw [same, read_write_self m i b hm]
  case isFalse other => exact read_write_other m i j b other

/-- Settles O25: the operation is `execRxPay_of_lt`, the buffer's entries are the laws of a write to PBUF. -/
theorem payloadByteIsStoredAndSummed : Obligations.PayloadByteIsStoredAndSummed := by
  unfold Obligations.PayloadByteIsStoredAndSummed
  intro s b canonical slot last
  have counted : s.rx.pcnt + 1 = BitVec.ofNat 8 (s.rx.pcnt.toNat + 1) :=
    BitVec.eq_of_toNat_eq (by simp)
  refine ⟨_, execRxPay_of_lt slot, ?_, Pbuf.write_wf _ _ b canonical slot, fun i => Pbuf.read_write canonical _ i b⟩
  rw [← addByte_eq_ofNat, ← counted]

/-! ### The checksum and the completion -/

/-- Settles O27. -/
theorem checksumHighByteIsKept : Obligations.ChecksumHighByteIsKept := by
  unfold Obligations.ChecksumHighByteIsKept
  exact fun _ _ => rfl

/-- The state after a frame with all its payload bytes is validated and decoded. -/
def State.completed (s : State) (f : Frame) : State :=
  if f.ck = s.rx.sum then
    match f.kind s.cfg with
    | .telem => (s.accept f).storeUpdate (telemSnap s.cfg f s.store.snap)
    | .status => (s.accept f).storeUpdate (statusSnap s.cfg f s.now s.store.snap)
    | .skip => (s.accept f).raise .decodeSkip
  else s.reject f.ck s.rx.sum

/-- R8(c) bounds what DECODE_TELEM reads by the length that the class asks for. -/
theorem telemReadable_of_kind {c : Params} {f : Frame} (wf : c.wf = true) (lenOk : f.lenOk = true)
    (kind : f.kind c = .telem) : telemReadable c f = true := by
  obtain ⟨-, -, -, -, -, -, -, -, hwatt, hrpm, -⟩ := c.wf_iff.mp wf
  have length : f.len.toNat + 10 = c.telemFrameLen := by
    by_contra hne
    have notTelem : ¬ (f.src = c.addrPump ∧ f.cmd = c.cmdTelem ∧ f.len.toNat + 10 = c.telemFrameLen) :=
      fun ⟨_, _, h⟩ => hne h
    rcases Nat.lt_or_ge 8 f.len.toNat with long | short
    · cases kind.symm.trans (Frame.kind_status notTelem long)
    · cases kind.symm.trans (Frame.kind_skip notTelem short)
  simp only [telemReadable, (Frame.lenOk_iff f).mp lenOk, Bool.and_eq_true, decide_eq_true_eq]
  omega

/-- R8(a) bounds what DECODE_STATUS reads by the length that the class asks for. -/
theorem statusReadable_of_kind {c : Params} {f : Frame} (wf : c.wf = true) (lenOk : f.lenOk = true)
    (kind : f.kind c = .status) : statusReadable c f = true := by
  obtain ⟨heq1, heq2, hhour, hmin, -⟩ := c.wf_iff.mp wf
  have long : 8 < f.len.toNat := by
    by_contra short
    by_cases h : f.src = c.addrPump ∧ f.cmd = c.cmdTelem ∧ f.len.toNat + 10 = c.telemFrameLen
    · cases kind.symm.trans (Frame.kind_telem h)
    · cases kind.symm.trans (Frame.kind_skip h (Nat.le_of_not_lt short))
  simp only [statusReadable, (Frame.lenOk_iff f).mp lenOk, Bool.and_eq_true, decide_eq_true_eq]
  omega

/-- Under a well-formed configuration the completion of a frame with all its payload bytes has a next state. -/
theorem completeFrame_eq_completed {f : Frame} {s : State} (wf : s.cfg.wf = true) (lenOk : f.lenOk = true) :
    completeFrame f s = .next (s.completed f) := by
  unfold completeFrame State.completed
  split
  case isTrue agree =>
    cases kind : f.kind s.cfg with
    | telem => exact if_pos (telemReadable_of_kind wf lenOk kind)
    | status => exact if_pos (statusReadable_of_kind wf lenOk kind)
    | skip => rfl
  case isFalse differ => rfl

theorem execRxCk1_eq_completed {b : Byte} {s : State} (wf : s.cfg.wf = true) (lenOk : (s.rx.frame b).lenOk = true) :
    execRxCk1 b s = .next (s.completed (s.rx.frame b)).hunt := by
  rw [execRxCk1, completeFrame_eq_completed wf lenOk]
  rfl

theorem Reader.frame_lenOk (r : Reader) (b : Byte) : (r.frame b).lenOk = true := by
  simp [Frame.lenOk, Reader.frame]

/-- The completion is the operation of the frame's rejection or of its class. -/
theorem completeFrame_cases (f : Frame) (s : State) :
    (f.ck ≠ s.rx.sum → completeFrame f s = exec (.frameBadck f) s) ∧
    (f.ck = s.rx.sum → f.kind s.cfg = .telem → completeFrame f s = exec (.frameTelem f) s) ∧
    (f.ck = s.rx.sum → f.kind s.cfg = .status → completeFrame f s = exec (.frameStatus f) s) ∧
    (f.ck = s.rx.sum → f.kind s.cfg = .skip → completeFrame f s = exec (.frameSkip f) s) := by
  refine ⟨fun differ => if_neg differ, fun agree kind => ?_, fun agree kind => ?_, fun agree kind => ?_⟩
  all_goals
    rw [completeFrame, if_pos agree, kind]
    rfl

theorem ck_eq_iff (f : Frame) (sum : Half) : f.ck = sum ↔ 256 * f.ckh.toNat + f.ckl.toNat = sum.toNat := by
  rw [Frame.ck, ← BitVec.toNat_inj, beHalf_toNat]

/-- Settles O28: the operation is the completion, by the comparison of the checksums and then by the class. -/
theorem lastByteCompletesTheFrame : Obligations.LastByteCompletesTheFrame := by
  unfold Obligations.LastByteCompletesTheFrame
  intro s b wf f op
  have assembled : f = s.rx.frame b := rfl
  have lenOk : f.lenOk = true := s.rx.frame_lenOk b
  have ⟨badck, telem, status, skip⟩ := completeFrame_cases f s
  have runs : exec op s = completeFrame f s := by
    unfold op
    split
    case isTrue differ => exact (badck (differ ∘ (ck_eq_iff f _).mp)).symm
    case isFalse same =>
      have agree : f.ck = s.rx.sum := (ck_eq_iff f _).mpr (not_not.mp same)
      split
      case isTrue isTelem => exact (telem agree (Frame.kind_telem isTelem)).symm
      case isFalse notTelem =>
        split
        case isTrue long => exact (status agree (Frame.kind_status notTelem long)).symm
        case isFalse short => exact (skip agree (Frame.kind_skip notTelem (Nat.le_of_not_lt short))).symm
  exact ⟨s.completed f, runs.trans (completeFrame_eq_completed wf lenOk), execRxCk1_eq_completed wf lenOk⟩

end Sys2Proof.Machine
end

section
/-! PROOFS. The FrameReader in a step: a failed channel (40_frame_reader.md R141), and what of a frame in progress shows
outside (R151). -/
namespace Sys2Proof.Machine

/-! ### A failed channel -/

/-- Settles O21: whatever RSTATE is, RX.FAIL is selected by `chan_fail`, and without it RX.DEAD in FAILED; neither
writes the store. -/
theorem channelFailureIsPermanent : Obligations.ChannelFailureIsPermanent := by
  unfold Obligations.ChannelFailureIsPermanent
  refine ⟨fun _ => rfl, fun _ => rfl, fun s t hstep hrst => ?_⟩
  obtain ⟨-, ⟨reset, -⟩ | ⟨-, -, q, h, d, r, -, -, -, reader, rfl⟩⟩ := runCycle_eq_next hstep
  case inl => exact absurd (reset.symm.trans hrst) (by decide)
  refine ⟨fun failed => ?fail, fun intact dead => ?dead⟩
  case fail =>
    have runs := reader.symm.trans (runUnit_of_decode (decodeRx_fail failed))
    cases runs
    exact ⟨rfl, rfl, rfl, rfl⟩
  case dead =>
    have runs := reader.symm.trans (runUnit_of_decode (decodeRx_dead intact dead))
    cases runs
    exact ⟨rfl, rfl, rfl, rfl⟩

/-! ### A frame in progress -/

/-- The registers show RSTATE and nothing else of the FrameReader. -/
theorem regRead_withReader {s : State} {r : Reader} (hr : r.rstate = s.rx.rstate) (a : BitVec 5) :
    ({ s with rx := r } : State).regRead a = s.regRead a := by
  have rxstat : ({ s with rx := r } : State).regRxstat = s.regRxstat := by simp only [State.regRxstat, hr]
  simp only [State.regRead, rxstat]
  rfl

theorem step_of_reset {s t : State} (hrst : s.input.rst = true) (hstep : step s = .next t) :
    t = s.resetCycle s.input := by
  obtain ⟨-, ⟨-, reset⟩ | ⟨runs, -⟩⟩ := runCycle_eq_next hstep
  case inl => exact reset
  case inr => exact absurd (hrst.symm.trans runs) (by decide)

/-- A cycle without reset as the host sees it: the outputs are those of the transmit port, of the read port,
and of the state before. -/
theorem step_without_reset {s t : State} (hrst : s.input.rst = false) (hstep : step s = .next t) :
    ∃ h d, runUnit (State.hostCode s.input) s.beginCycle = .next h ∧
      runUnit (.dsp (s.beginCycle.dspSel s.input)) (s.beginCycle.forDispatcher h) = .next d ∧
      t.out = { txValid := d.out.txValid, txData := d.out.txData, hRdata := s.regRead s.input.hAddr, irq := s.irq,
                linkFail := s.err.linkFail } ∧
      t.dsp = d.dsp ∧ t.res = d.res ∧ t.ctrl = h.ctrl := by
  obtain ⟨-, ⟨reset, -⟩ | ⟨-, -, q, h, d, r, read, host, dispatcher, -, rfl⟩⟩ := runCycle_eq_next hstep
  case inl => exact absurd (reset.symm.trans hrst) (by decide)
  case inr =>
    rw [readUnit_eq] at read
    cases read
    exact ⟨h, d, host, dispatcher, rfl, rfl, rfl, rfl⟩

/-- Settles O50: the registers show no more than RSTATE, and the host's and the dispatcher's units commute with another
FrameReader state. -/
theorem partialFrameIsNotExposed : Obligations.PartialFrameIsNotExposed := by
  unfold Obligations.PartialFrameIsNotExposed
  intro s r hr
  have reads := regRead_withReader hr
  refine ⟨fun a => ?read, rfl, fun _ => rfl, fun t u ht hu => ?step⟩
  case read =>
    rw [← reads a]
    rfl
  case step =>
    have sameInput : ({ s with rx := r } : State).input = s.input := rfl
    cases hrst : s.input.rst with
    | true =>
      rw [step_of_reset hrst ht, step_of_reset (s := { s with rx := r }) hrst hu]
      refine ⟨?_, rfl, rfl, rfl⟩
      simp only [State.resetCycle, sameInput, reads]
      rfl
    | false =>
      obtain ⟨h, d, host, dispatcher, out, dsp, res, ctrl⟩ := step_without_reset hrst ht
      obtain ⟨h', d', host', dispatcher', out', dsp', res', ctrl'⟩ :=
        step_without_reset (s := { s with rx := r }) hrst hu
      have hostAlike : h' = { h with rx := r, out := h'.out } := hostUnit_withReader host host'
      have handedOn : ({ s with rx := r } : State).beginCycle.forDispatcher h' =
          { s.beginCycle.forDispatcher h with rx := r } := by
        rw [hostAlike]
        rfl
      have dispatcherAlike : d' = { d with rx := r } := by
        rw [handedOn] at dispatcher'
        have alike := dspUnit_withReader (s.beginCycle.dspSel s.input) r (s.beginCycle.forDispatcher h)
        rw [dispatcher] at alike
        exact Host.Outcome.next.inj (dispatcher'.symm.trans alike)
      rw [out, out', dsp, dsp', res, res', ctrl, ctrl', hostAlike, dispatcherAlike, sameInput, reads]
      exact ⟨rfl, rfl, rfl, rfl⟩

end Sys2Proof.Machine
end

section
/-! PROOFS. Every step ends in legal encodings (45_cycle_step.md R307), and from them the dispatcher's unit always has a
next state. -/
namespace Sys2Proof.Machine

/-- The FrameReader's encodings that some rule produces. -/
def Reader.Legal (r : Reader) : Prop := r.rstate.toNat ≤ 4 ∧ r.wfill.toNat ≤ 4

/-- The dispatcher's encodings that some rule produces. -/
def Dispatcher.Legal (d : Dispatcher) : Prop :=
  d.dstate.toNat ≤ 2 ∧ d.txidx.toNat ≤ 11 ∧ d.att.toNat ≤ 5 ∧ d.cFeat.toNat < 9

theorem legal_iff_units (s : State) : s.legal = true ↔ s.rx.Legal ∧ s.dsp.Legal := by
  simp only [legal_iff, Reader.Legal, Dispatcher.Legal, and_assoc]

theorem rxUnit_legal {i : CycleIn} {s t : State} (hs : s.rx.Legal) (h : runUnit (.rx (s.rxSel i)) s = .next t) :
    t.rx.Legal := by
  obtain ⟨rstate, wfill⟩ := hs
  rcases rxUnit_cases h with ⟨-, fail⟩ | ⟨-, -, rfl⟩ | ⟨-, -, -, rfl⟩ | ⟨-, -, -, -, rfl⟩ |
    ⟨-, -, -, ⟨-, hunt⟩ | ⟨-, hdr⟩ | ⟨-, pay⟩ | ⟨-, -, ck0⟩ | ⟨-, -, ck1⟩⟩
  · cases fail
    exact ⟨le_rfl, wfill⟩
  · exact ⟨rstate, wfill⟩
  · exact ⟨Nat.zero_le _, Nat.zero_le _⟩
  · exact ⟨rstate, wfill⟩
  · have filled : (fillUp s.rx.wfill).toNat ≤ 4 := fillUp_toNat _ ▸ Nat.min_le_right _ _
    rcases execRxHunt_eq_next hunt with ⟨-, rfl⟩ | ⟨-, rfl⟩
    · exact ⟨Nat.one_le_ofNat, filled⟩
    · exact ⟨rstate, filled⟩
  · unfold execRxHdr at hdr
    dsimp only at hdr
    split at hdr <;> cases hdr
    case h_4 => exact ⟨by dsimp only; split <;> decide, wfill⟩
    all_goals exact ⟨rstate, wfill⟩
  · rw [(execRxPay_eq_next pay).2]
    refine ⟨?_, wfill⟩
    dsimp only
    split
    · decide
    · exact rstate
  · cases ck0
    exact ⟨rstate, wfill⟩
  · obtain ⟨e, -, rfl⟩ := execRxCk1_eq_next ck1
    exact ⟨Nat.zero_le _, Nat.zero_le _⟩

theorem dspUnit_legal {i : CycleIn} {s t : State} (hs : s.dsp.Legal) (h : runUnit (.dsp (s.dspSel i)) s = .next t) :
    t.dsp.Legal := by
  obtain ⟨dstate, txidx, att, cFeat⟩ := hs
  rcases dspUnit_cases h with ⟨st, feat, -, start, rfl⟩ | ⟨-, -, rfl⟩ | ⟨-, -, timeout⟩ | ⟨-, -, -, -, txEnd⟩ |
    ⟨-, -, notEnd, tx⟩ | ⟨-, -, -, success⟩ | ⟨-, -, -, timeout⟩ | ⟨-, -, -, -, left, retry⟩ |
    ⟨-, -, -, -, -, exhaust⟩ | ⟨-, -, -, wait⟩
  · exact ⟨Nat.one_le_ofNat, Nat.zero_le _, Nat.one_le_ofNat, startOf_legal start⟩
  · exact ⟨dstate, txidx, att, cFeat⟩
  · cases timeout
    exact ⟨Nat.zero_le _, txidx, att, cFeat⟩
  · obtain ⟨b, -, rfl⟩ := execDspTxEnd_eq_next txEnd
    exact ⟨le_rfl, Nat.zero_le _, att, cFeat⟩
  · obtain ⟨b, -, rfl⟩ := execDspTx_eq_next notEnd tx
    refine ⟨dstate, ?_, att, cFeat⟩
    dsimp only
    split
    case isFalse stays => exact txidx
    case isTrue ready =>
      have notLast : s.dsp.txidx ≠ 11 := fun last => by simp [ready, State.lastByte, last] at notEnd
      have : s.dsp.txidx.toNat ≠ 11 := fun e => notLast (BitVec.eq_of_toNat_eq e)
      bv_omega
  · cases success
    exact ⟨Nat.zero_le _, txidx, att, cFeat⟩
  · cases timeout
    exact ⟨Nat.zero_le _, txidx, att, cFeat⟩
  · cases retry
    have := (attLeft_iff s).mp left
    exact ⟨Nat.one_le_ofNat, Nat.zero_le _, by dsimp only; bv_omega, cFeat⟩
  · cases exhaust
    exact ⟨Nat.zero_le _, txidx, att, cFeat⟩
  · cases wait
    exact ⟨dstate, txidx, att, cFeat⟩

/-- Every step ends in a state that meets the range check of the next one. -/
theorem step_legal {s t : State} (hstep : step s = .next t) : t.legal = true := by
  obtain ⟨-, ⟨-, rfl⟩ | ⟨-, legal, q, h, d, r, -, -, dispatcher, reader, rfl⟩⟩ := runCycle_eq_next hstep
  case inl => exact powerOn_legal s.cfg s.tape.tail
  case inr =>
    obtain ⟨rx, dsp⟩ := (legal_iff_units s).mp legal
    have rxAfter : r.rx.Legal := rxUnit_legal (i := s.input) (s := s.beginCycle.forReader h d) rx reader
    have dspAfter : d.dsp.Legal := dspUnit_legal (i := s.input) (s := s.beginCycle.forDispatcher h) dsp dispatcher
    exact (legal_iff_units _).mpr ⟨rxAfter, dspAfter⟩

/-- DSTATE 0 to 2 all have a row. -/
theorem decodeDsp_isOk {x : DspSel} (h : x.dstate.toNat ≤ 2) : ∃ op, decodeDsp x = .ok op := by
  have known : x.dstate = 0 ∨ x.dstate = 1 ∨ x.dstate = 2 := by
    generalize x.dstate = d at h
    revert h d
    decide
  obtain ⟨dstate, start, tmo, ready, last, fresh, matched, attLeft⟩ := x
  unfold decodeDsp
  dsimp only at known ⊢
  rcases known with rfl | rfl | rfl
  · cases start <;> exact ⟨_, rfl⟩
  · rw [if_neg (by decide), if_pos rfl]
    split
    · exact ⟨_, rfl⟩
    · split <;> exact ⟨_, rfl⟩
  · rw [if_neg (by decide), if_neg (by decide), if_pos rfl]
    split
    · exact ⟨_, rfl⟩
    · split
      · exact ⟨_, rfl⟩
      · split
        · exact ⟨_, rfl⟩
        · split <;> exact ⟨_, rfl⟩

/-- Only DSP.TX and DSP.TX_END read something that could be missing, a byte of the command frame. -/
theorem dspUnit_next {s : State} (hs : s.dsp.Legal) (i : CycleIn) :
    ∃ t, runUnit (.dsp (s.dspSel i)) s = .next t := by
  obtain ⟨dstate, txidx, -, cFeat⟩ := hs
  obtain ⟨op, hop⟩ := decodeDsp_isOk (x := s.dspSel i) dstate
  obtain ⟨b, hb⟩ := txByte_isSome (st := s.dsp.cSt) cFeat txidx
  have offers : execCmdFrame s.dsp.cFeat s.dsp.cSt s = .next (s.offer b) := by rw [execCmdFrame, hb]
  have txEnd : ∃ t, execDspTxEnd s = .next t := by
    rw [execDspTxEnd, offers]
    exact ⟨_, rfl⟩
  have tx (ready : Bool) : ∃ t, execDspTx ready s = .next t := by
    rw [execDspTx]
    split
    · exact txEnd
    · rw [offers]
      exact ⟨_, rfl⟩
  rw [runUnit_of_decode (code := .dsp (s.dspSel i)) hop]
  rcases decodeDsp_cases hop with ⟨_, _, -, -, rfl⟩ | ⟨-, -, rfl⟩ | ⟨-, -, rfl⟩ | ⟨-, -, -, -, rfl⟩ | ⟨-, -, -, rfl⟩ |
    ⟨-, -, -, rfl⟩ | ⟨-, -, -, rfl⟩ | ⟨-, -, -, -, -, rfl⟩ | ⟨-, -, -, -, -, rfl⟩ | ⟨-, -, -, rfl⟩
  case inr.inr.inr.inl => exact txEnd
  case inr.inr.inr.inr.inl => exact tx _
  all_goals exact ⟨_, rfl⟩

end Sys2Proof.Machine
end

section
/-! PROOFS. Reception byte by byte (40_frame_reader.md R144 to R148, R152): a cycle that only carries a received byte is
the FrameReader's operation on it; all bytes of a frame but the last write FrameReader registers only. -/
namespace Sys2Proof.Machine

/-! ### One cycle with a received byte -/

/-- The inputs of a cycle with a received byte and no other stimulus. -/
def byteIn (b : Byte) : CycleIn := { CycleIn.quiet with rxValid := true, rxData := b }

/-- Such a cycle ends as the FrameReader's unit does, but for the outputs, the events, NOW, and what the dispatcher
writes. -/
theorem step_byteIn {s : State} {b : Byte} {rest : List CycleIn} (wf : s.cfg.wf = true) (legal : s.legal = true)
    (tape : s.tape = byteIn b :: rest)
    (runs : ∀ d, ∃ r, runUnit (.rx (s.rxSel (byteIn b))) (s.beginCycle.forReader s d) = .next r) :
    ∃ d r out events, runUnit (.rx (s.rxSel (byteIn b))) (s.beginCycle.forReader s d) = .next r ∧
      step s = .next { r with out := out, events := events, now := s.now + 1, dsp := d.dsp, res := d.res } := by
  have input : s.input = byteIn b := by rw [State.input, tape]; rfl
  obtain ⟨d, dispatcher⟩ := dspUnit_next (s := s.beginCycle) ((legal_iff_units s).mp legal).2 (byteIn b)
  obtain ⟨r, reader⟩ := runs d
  obtain ⟨out, read⟩ : ∃ out, runUnit (State.readCode (byteIn b)) s.beginCycle =
      .next { s.beginCycle with out := out } := ⟨_, rfl⟩
  let q : State := { s.beginCycle with out := out }
  have host : runUnit (State.hostCode (byteIn b)) s.beginCycle = .next q := read
  have merged : step s = .next (s.beginCycle.merge q q d r) := by
    unfold step runCycle
    rw [if_neg (by simp [wf]), input, if_neg (show ¬ (byteIn b).rst = true from Bool.false_ne_true),
      if_neg (by simp [legal]), runUnits, read, andThen, host, andThen]
    show andThen (runUnit (.dsp (s.beginCycle.dspSel (byteIn b))) s.beginCycle) _ = _
    rw [dispatcher]
    show andThen (runUnit (.rx (s.rxSel (byteIn b))) (s.beginCycle.forReader s d)) _ = _
    rw [reader]
    rfl
  refine ⟨d, r, (s.beginCycle.merge q q d r).out, (s.beginCycle.merge q q d r).events, reader, ?_⟩
  rw [merged, rxUnit_frame (i := byteIn b) (s := s.beginCycle.forReader s d) reader]
  rfl

/-- A run of one more cycle. -/
theorem run_succ {M : Host.Core} {s t : M.State} (h : M.step s = .next t) (k : Nat) : M.run (k + 1) s = M.run k t := by
  simp only [Host.Core.run, h]

/-! ### Several cycles in which only FrameReader registers are written -/

/-- `n` cycles lead from `s` to `t`, and of the elements that a received frame can write they write only FrameReader
registers and FRESH. -/
structure Receiving (s : State) (n : Nat) (t : State) : Prop where
  runs : ∀ k, Host.Core.run Sys2Proof.core (n + k) s = Host.Core.run Sys2Proof.core k t
  legal : t.legal = true
  cfg : t.cfg = s.cfg
  tape : t.tape = s.tape.drop n
  now : t.now = s.now + BitVec.ofNat 32 n
  ctrl : t.ctrl = s.ctrl
  diag : t.diag = s.diag
  snap : t.store.snap = s.store.snap
  seq : t.store.seq = s.store.seq
  err : t.err = s.err

theorem Receiving.refl {s : State} (legal : s.legal = true) : Receiving s 0 s where
  runs k := by rw [Nat.zero_add]
  legal := legal
  cfg := rfl
  tape := rfl
  now := (BitVec.add_zero s.now).symm
  ctrl := rfl
  diag := rfl
  snap := rfl
  seq := rfl
  err := rfl

theorem Receiving.trans {s t u : State} {m n : Nat} (h : Receiving s m t) (h' : Receiving t n u) :
    Receiving s (m + n) u where
  runs k := by rw [Nat.add_assoc, h.runs, h'.runs]
  legal := h'.legal
  cfg := h'.cfg.trans h.cfg
  tape := by rw [h'.tape, h.tape, List.drop_drop]
  now := by rw [h'.now, h.now, BitVec.ofNat_add, BitVec.add_assoc]
  ctrl := h'.ctrl.trans h.ctrl
  diag := h'.diag.trans h.diag
  snap := h'.snap.trans h.snap
  seq := h'.seq.trans h.seq
  err := h'.err.trans h.err

/-- With FrameReader registers `r` the FrameReader's operation on byte `b` makes them `r'` and writes nothing else. -/
def TakesByte (c : Params) (r : Reader) (b : Byte) (r' : Reader) : Prop :=
  ∀ s : State, s.cfg = c → s.rx = r → s.ctrl.rxEn = true →
    ∃ events, runUnit (.rx (s.rxSel (byteIn b))) s = .next { s with rx := r', events := events }

/-- The bytes, taken one after the other, lead from FrameReader registers to FrameReader registers. -/
inductive TakesBytes (c : Params) : Reader → List Byte → Reader → Prop
  | nil (r : Reader) : TakesBytes c r [] r
  | cons {r m r' : Reader} {b : Byte} {bs : List Byte} :
    TakesByte c r b m → TakesBytes c m bs r' → TakesBytes c r (b :: bs) r'

theorem TakesBytes.append {c : Params} {r m r' : Reader} {bs bs' : List Byte} (h : TakesBytes c r bs m)
    (h' : TakesBytes c m bs' r') : TakesBytes c r (bs ++ bs') r' := by
  induction h with
  | nil => exact h'
  | cons takes _ ih => exact .cons takes (ih h')

/-- One byte on the tape. -/
theorem TakesByte.receiving {s : State} {b : Byte} {r' : Reader} {rest : List CycleIn}
    (takes : TakesByte s.cfg s.rx b r') (wf : s.cfg.wf = true) (legal : s.legal = true) (on : s.ctrl.rxEn = true)
    (tape : s.tape = byteIn b :: rest) : ∃ t, Receiving s 1 t ∧ t.rx = r' := by
  have runs (d : State) : ∃ events, runUnit (.rx (s.rxSel (byteIn b))) (s.beginCycle.forReader s d) =
      .next { s.beginCycle.forReader s d with rx := r', events := events } := takes _ rfl rfl on
  obtain ⟨d, r, out, events, reader, stepped⟩ := step_byteIn wf legal tape fun d => ⟨_, (runs d).choose_spec⟩
  obtain ⟨_, taken⟩ := runs d
  obtain rfl := Host.Outcome.next.inj (reader.symm.trans taken)
  refine ⟨_, ⟨fun k => ?_, step_legal stepped, rfl, ?_, rfl, rfl, rfl, rfl, rfl, rfl⟩, rfl⟩
  · rw [Nat.add_comm, run_succ (M := Sys2Proof.core) stepped]
  · rw [List.drop_one]
    rfl

/-- Several bytes on the tape. -/
theorem TakesBytes.receiving {c : Params} {r r' : Reader} {bs : List Byte} (takes : TakesBytes c r bs r')
    (wf : c.wf = true) {s : State} {rest : List CycleIn} (cfg : s.cfg = c) (rx : s.rx = r) (legal : s.legal = true)
    (on : s.ctrl.rxEn = true) (tape : s.tape = bs.map byteIn ++ rest) : ∃ t, Receiving s bs.length t ∧ t.rx = r' := by
  induction takes generalizing s with
  | nil => exact ⟨s, .refl legal, rx⟩
  | cons first _ ih =>
    subst cfg rx
    obtain ⟨t, one, taken⟩ := first.receiving wf legal on tape
    have tapeLeft := one.tape.trans (congrArg (List.drop 1) tape)
    obtain ⟨u, others, done⟩ := ih one.cfg taken one.legal (one.ctrl ▸ on) tapeLeft
    exact ⟨u, by simpa only [List.length_cons, Nat.add_comm] using one.trans others, done⟩

/-! ### The bytes of a frame -/

theorem rxUnit_of_decodeRx {x : RxSel} {op : Instr} (h : decodeRx x = .ok op) (s : State) :
    runUnit (.rx x) s = exec op s :=
  runUnit_of_decode (code := .rx x) h

section
variable {s : State} {b : Byte} (on : s.ctrl.rxEn = true)
include on

theorem rxUnit_hunt (hs : s.rx.rstate = 0) : runUnit (.rx (s.rxSel (byteIn b))) s = execRxHunt b s :=
  rxUnit_of_decodeRx (decodeRx_hunt (x := s.rxSel (byteIn b)) rfl on rfl hs) s

theorem rxUnit_hdr (hs : s.rx.rstate = 1) : runUnit (.rx (s.rxSel (byteIn b))) s = execRxHdr b s :=
  rxUnit_of_decodeRx (decodeRx_hdr (x := s.rxSel (byteIn b)) rfl on rfl hs) s

theorem rxUnit_pay (hs : s.rx.rstate = 2) : runUnit (.rx (s.rxSel (byteIn b))) s = execRxPay b s :=
  rxUnit_of_decodeRx (decodeRx_pay (x := s.rxSel (byteIn b)) rfl on rfl hs) s

theorem rxUnit_ck0 (hs : s.rx.rstate = 3) (hk : s.rx.kcnt = 0) :
    runUnit (.rx (s.rxSel (byteIn b))) s = execRxCk0 b s :=
  rxUnit_of_decodeRx (decodeRx_ck0 (x := s.rxSel (byteIn b)) rfl on rfl hs hk) s

theorem rxUnit_ck1 (hs : s.rx.rstate = 3) (hk : s.rx.kcnt = 1) :
    runUnit (.rx (s.rxSel (byteIn b))) s = execRxCk1 b s :=
  rxUnit_of_decodeRx (decodeRx_ck1 (x := s.rxSel (byteIn b)) rfl on rfl hs hk) s

end

section
variable {c : Params} {r : Reader} {b : Byte}

theorem takesByte_hunt_filling {n : BitVec 3} (hs : r.rstate = 0) (filled : fillUp r.wfill = n) (short : n ≠ 4) :
    TakesByte c r b { r with win := shiftIn r.win b, wfill := n } := by
  subst filled
  rintro s rfl rfl on
  exact ⟨_, (rxUnit_hunt on hs).trans (execRxHunt_of_no_match fun synced => short synced.1)⟩

theorem takesByte_hunt_synced (hs : r.rstate = 0) (filled : fillUp r.wfill = 4)
    (preamble : shiftIn r.win b = c.preamble) :
    TakesByte c r b { r with win := shiftIn r.win b, wfill := 4, rstate := rHdr, hcnt := 0, sum := 0 } := by
  rw [← filled]
  rintro s rfl rfl on
  exact ⟨_, (rxUnit_hunt on hs).trans (execRxHunt_of_match ⟨filled, preamble⟩)⟩

theorem takesByte_dst (hs : r.rstate = 1) (hn : r.hcnt = 0) :
    TakesByte c r b { r with fDst := b, sum := addByte r.sum b, hcnt := 1 } := by
  rintro s rfl rfl on
  exact ⟨_, (rxUnit_hdr on hs).trans (execRxHdr_dst hn)⟩

theorem takesByte_src (hs : r.rstate = 1) (hn : r.hcnt = 1) :
    TakesByte c r b { r with fSrc := b, sum := addByte r.sum b, hcnt := 2 } := by
  rintro s rfl rfl on
  exact ⟨_, (rxUnit_hdr on hs).trans (execRxHdr_src hn)⟩

theorem takesByte_cmd (hs : r.rstate = 1) (hn : r.hcnt = 2) :
    TakesByte c r b { r with fCmd := b, sum := addByte r.sum b, hcnt := 3 } := by
  rintro s rfl rfl on
  exact ⟨_, (rxUnit_hdr on hs).trans (execRxHdr_cmd hn)⟩

theorem takesByte_len (hs : r.rstate = 1) (hn : r.hcnt = 3) :
    TakesByte c r b { r with
      fLen := b, sum := addByte r.sum b, pcnt := 0, kcnt := 0, rstate := if b = 0 then rCk else rPay } := by
  rintro s rfl rfl on
  exact ⟨_, (rxUnit_hdr on hs).trans (execRxHdr_len hn)⟩

theorem takesByte_pay (hs : r.rstate = 2) (slot : r.pcnt.toNat < 255) :
    TakesByte c r b { r with
      pbuf := r.pbuf.write r.pcnt.toNat b, sum := addByte r.sum b, pcnt := r.pcnt + 1
      rstate := if r.pcnt.toNat + 1 = r.fLen.toNat then rCk else r.rstate
      kcnt := if r.pcnt.toNat + 1 = r.fLen.toNat then 0 else r.kcnt } := by
  rintro s rfl rfl on
  exact ⟨_, (rxUnit_pay on hs).trans (execRxPay_of_lt slot)⟩

theorem takesByte_ck0 (hs : r.rstate = 3) (hk : r.kcnt = 0) : TakesByte c r b { r with ckh := b, kcnt := 1 } := by
  rintro s rfl rfl on
  exact ⟨_, rxUnit_ck0 on hs hk⟩

end

end Sys2Proof.Machine
end

section
/-! PROOFS. A frame received byte by byte (40_frame_reader.md R148, R152) does what the operation does that its bytes
decode to: the bytes before the last leave the frame assembled in the FrameReader, and the last one completes it. -/
namespace Sys2Proof.Machine

/-! ### The completion depends on few elements -/

/-- What the completion of a frame leaves alone. -/
theorem completed_frame (s : State) (f : Frame) :
    s.completed f =
      { s with store := (s.completed f).store, diag := (s.completed f).diag, events := (s.completed f).events } := by
  unfold State.completed
  split
  · split <;> rfl
  · rfl

/-- The completion reads the configuration, SUM, NOW, the diagnostics, the snapshot and SEQ. -/
theorem completed_congr {s t : State} {f : Frame} (cfg : s.cfg = t.cfg) (sum : s.rx.sum = t.rx.sum)
    (now : s.now = t.now) (diag : s.diag = t.diag) (snap : s.store.snap = t.store.snap)
    (seq : s.store.seq = t.store.seq) :
    (s.completed f).diag = (t.completed f).diag ∧ (s.completed f).store.snap = (t.completed f).store.snap ∧
      (s.completed f).store.seq = (t.completed f).store.seq := by
  unfold State.completed
  rw [cfg, sum]
  split
  · split <;> simp [now, diag, snap, seq]
  · simp [diag, snap, seq]

/-- With SUM right, the operation that the decoder reads from a frame is its completion. -/
theorem exec_frameInstr {f : Frame} {s : State} (sum : s.rx.sum = cksum f.summed) :
    exec (frameInstr s.cfg f) s = completeFrame f s := by
  have ⟨badck, telem, status, skip⟩ := completeFrame_cases f s
  unfold frameInstr
  split
  case isFalse invalid => exact (badck fun agree => invalid ((Frame.valid_iff f).mpr (agree.trans sum))).symm
  case isTrue valid =>
    have agree : f.ck = s.rx.sum := ((Frame.valid_iff f).mp valid).trans sum.symm
    split
    case h_1 kind => exact (telem agree kind).symm
    case h_2 kind => exact (status agree kind).symm
    case h_3 kind => exact (skip agree kind).symm

/-- The operation that a frame's bytes decode to ends in the completion of the frame. -/
theorem eq_completed_of_decode {s e : State} {f : Frame} {op : Instr} (executes : exec op s = .next e)
    (decodes : decode s.cfg (.frame (f.bytes s.cfg)) = .ok op) (wf : s.cfg.wf = true) (lenOk : f.lenOk = true)
    (sum : s.rx.sum = cksum f.summed) : e = s.completed f := by
  obtain rfl : frameInstr s.cfg f = op := Except.ok.inj ((decode_frame_bytes s.cfg lenOk).symm.trans decodes)
  rw [exec_frameInstr sum, completeFrame_eq_completed wf lenOk] at executes
  exact (Host.Outcome.next.inj executes).symm

/-! ### The frame that the bytes before the last assemble -/

/-- The FrameReader has taken the header of `f` and the payload bytes `taken`. -/
structure Collects (r : Reader) (f : Frame) (taken : List Byte) : Prop where
  header : r.header = [f.dst, f.src, f.cmd, f.len]
  payload : r.payload taken.length = taken
  sum : r.sum = cksum ([f.dst, f.src, f.cmd, f.len] ++ taken)
  pcnt : r.pcnt.toNat = taken.length
  kcnt : r.kcnt = 0
  canonical : r.pbuf.wf = true
  rstate : r.rstate = if taken.length = f.len.toNat then rCk else rPay

theorem takesBytes_preamble {c : Params} {r : Reader} (hunts : r.rstate = 0) (cleared : r.wfill = 0) :
    ∃ r', TakesBytes c r c.preamble.toList r' ∧ r'.rstate = 1 ∧ r'.hcnt = 0 ∧ r'.sum = 0 ∧ r'.pbuf = r.pbuf := by
  have one : fillUp r.wfill = 1 := cleared ▸ rfl
  exact ⟨_, .cons (takesByte_hunt_filling hunts one (by decide))
    (.cons (takesByte_hunt_filling (n := 2) hunts rfl (by decide))
      (.cons (takesByte_hunt_filling (n := 3) hunts rfl (by decide))
        (.cons (takesByte_hunt_synced hunts rfl rfl) (.nil _)))), rfl, rfl, rfl, rfl⟩

theorem takesBytes_header {c : Params} {r : Reader} (f : Frame) (hdr : r.rstate = 1) (first : r.hcnt = 0)
    (sum : r.sum = 0) (canonical : r.pbuf.wf = true) :
    ∃ r', TakesBytes c r [f.dst, f.src, f.cmd, f.len] r' ∧ Collects r' f [] := by
  refine ⟨_, .cons (takesByte_dst hdr first) (.cons (takesByte_src hdr rfl) (.cons (takesByte_cmd hdr rfl)
    (.cons (takesByte_len hdr rfl) (.nil _)))), ⟨rfl, rfl, ?sum, rfl, rfl, canonical, ?rstate⟩⟩
  case sum =>
    have empty : r.sum = cksum [] := sum
    show addByte (addByte (addByte (addByte r.sum f.dst) f.src) f.cmd) f.len = _
    rw [empty, ← cksum_append_one, ← cksum_append_one, ← cksum_append_one, ← cksum_append_one]
    rfl
  case rstate =>
    have noPayload : f.len = 0 ↔ 0 = f.len.toNat :=
      ⟨fun h => h ▸ rfl, fun h => BitVec.eq_of_toNat_eq h.symm⟩
    exact if_congr noPayload rfl rfl

/-- Writing PBUF[n] adds the byte to the first `n` entries. -/
theorem payload_write {m : Pbuf} (canonical : m.wf = true) (n : Nat) (b : Byte) :
    (List.range (n + 1)).map (m.write n b).read = (List.range n).map m.read ++ [b] := by
  have before : (List.range n).map (m.write n b).read = (List.range n).map m.read :=
    List.map_congr_left fun i hi => Pbuf.read_write_other m n i b (Nat.ne_of_lt (List.mem_range.mp hi))
  rw [List.range_succ, List.map_append, before, List.map_singleton, Pbuf.read_write_self m n b canonical]

theorem Collects.fields {r : Reader} {f : Frame} {taken : List Byte} (h : Collects r f taken) :
    r.fDst = f.dst ∧ r.fSrc = f.src ∧ r.fCmd = f.cmd ∧ r.fLen = f.len := by
  simpa [Reader.header] using h.header

theorem Collects.takesByte {c : Params} {r : Reader} {f : Frame} {taken : List Byte} (h : Collects r f taken)
    (more : taken.length < f.len.toNat) (b : Byte) : ∃ r', TakesByte c r b r' ∧ Collects r' f (taken ++ [b]) := by
  have paying : r.rstate = 2 := h.rstate.trans (if_neg (Nat.ne_of_lt more))
  have below : f.len.toNat < 256 := f.len.isLt
  have slot : r.pcnt.toNat < 255 := by
    rw [h.pcnt]
    omega
  have length : (taken ++ [b]).length = taken.length + 1 := List.length_append
  obtain ⟨-, -, -, len⟩ := h.fields
  refine ⟨_, takesByte_pay paying slot, ⟨h.header, ?payload, ?sum, ?pcnt, ?kcnt, Pbuf.write_wf _ _ b h.canonical slot,
    ?rstate⟩⟩
  case payload =>
    show (List.range (taken ++ [b]).length).map (r.pbuf.write r.pcnt.toNat b).read = _
    rw [h.pcnt, length, payload_write h.canonical]
    exact congrArg (· ++ [b]) h.payload
  case sum =>
    show addByte r.sum b = _
    rw [h.sum, ← cksum_append_one, List.append_assoc]
  case pcnt =>
    show (r.pcnt + 1).toNat = _
    rw [length, ← h.pcnt]
    bv_omega
  case kcnt =>
    dsimp only
    split
    · rfl
    · exact h.kcnt
  case rstate =>
    dsimp only
    rw [h.pcnt, len, paying, length]

theorem Collects.takesBytes {c : Params} {f : Frame} (bs : List Byte) {r : Reader} {taken : List Byte}
    (h : Collects r f taken) (fits : taken.length + bs.length = f.len.toNat) :
    ∃ r', TakesBytes c r bs r' ∧ Collects r' f (taken ++ bs) := by
  induction bs generalizing r taken with
  | nil => exact ⟨r, .nil r, by rwa [List.append_nil]⟩
  | cons b bs ih =>
    rw [List.length_cons] at fits
    obtain ⟨m, takes, collected⟩ := h.takesByte (by omega) b
    obtain ⟨r', rest, all⟩ := ih collected (by rw [List.length_append, List.length_singleton]; omega)
    exact ⟨r', .cons takes rest, by rwa [List.append_assoc] at all⟩

/-- All bytes of a frame but the last leave it assembled, with SUM right, at its last checksum byte. -/
theorem takesBytes_frame {c : Params} {r : Reader} {f : Frame} (lenOk : f.payload.length = f.len.toNat)
    (hunts : r.rstate = 0) (cleared : r.wfill = 0) (canonical : r.pbuf.wf = true) :
    ∃ r', TakesBytes c r (c.preamble.toList ++ f.summed ++ [f.ckh]) r' ∧ r'.rstate = 3 ∧ r'.kcnt = 1 ∧
      r'.sum = cksum f.summed ∧ r'.frame f.ckl = f := by
  obtain ⟨r₁, preamble, hdr, first, sum, pbuf⟩ := takesBytes_preamble (c := c) hunts cleared
  obtain ⟨r₂, header, collects⟩ := takesBytes_header (c := c) f hdr first sum (pbuf ▸ canonical)
  obtain ⟨r₃, payload, collected⟩ := collects.takesBytes (c := c) f.payload (by simpa using lenOk)
  rw [List.nil_append] at collected
  have ck : r₃.rstate = 3 := collected.rstate.trans (if_pos lenOk)
  obtain ⟨dst, src, cmd, len⟩ := collected.fields
  have stored : (List.range r₃.fLen.toNat).map r₃.pbuf.read = f.payload := by
    rw [len, ← lenOk]
    exact collected.payload
  have ckh := TakesBytes.cons (takesByte_ck0 (c := c) (b := f.ckh) ck collected.kcnt) (.nil _)
  have all := (preamble.append (header.append payload)).append ckh
  refine ⟨_, all, ck, rfl, collected.sum, ?_⟩
  show Frame.mk r₃.fDst r₃.fSrc r₃.fCmd r₃.fLen _ f.ckh f.ckl = f
  rw [stored, dst, src, cmd, len]

/-! ### The last byte, and the statement -/

/-- The cycle with the last byte of an assembled frame completes it and hunts again. -/
theorem step_lastByte {s : State} {f : Frame} {rest : List CycleIn} (wf : s.cfg.wf = true) (legal : s.legal = true)
    (on : s.ctrl.rxEn = true) (ck : s.rx.rstate = 3) (last : s.rx.kcnt = 1) (assembled : s.rx.frame f.ckl = f)
    (tape : s.tape = byteIn f.ckl :: rest) :
    ∃ t, step s = .next t ∧ t.diag = (s.completed f).diag ∧ t.store.snap = (s.completed f).store.snap ∧
      t.store.seq = (s.completed f).store.seq ∧ t.tape = rest ∧ t.rx.rstate = 0 ∧ t.rx.wfill = 0 ∧ t.err = s.err := by
  have runs (d : State) : runUnit (.rx (s.rxSel (byteIn f.ckl))) (s.beginCycle.forReader s d) =
      .next ((s.beginCycle.forReader s d).completed f).hunt := by
    have completes := execRxCk1_eq_completed (s := s.beginCycle.forReader s d) wf (s.rx.frame_lenOk f.ckl)
    have sameFrame : (s.beginCycle.forReader s d).rx.frame f.ckl = f := assembled
    rw [sameFrame] at completes
    exact (rxUnit_ck1 (s := s.beginCycle.forReader s d) on ck last).trans completes
  obtain ⟨d, r, out, events, reader, stepped⟩ := step_byteIn wf legal tape fun d => ⟨_, runs d⟩
  obtain rfl := Host.Outcome.next.inj (reader.symm.trans (runs d))
  obtain ⟨diag, snap, seq⟩ : _ ∧ _ ∧ _ :=
    completed_congr (s := s.beginCycle.forReader s d) (t := s) (f := f) rfl rfl rfl rfl rfl rfl
  have kept := completed_frame (s.beginCycle.forReader s d) f
  have tapeKept := congrArg (·.tape) kept
  have errKept := congrArg (·.err) kept
  exact ⟨_, stepped, diag, snap, seq, tapeKept.trans (congrArg List.tail tape), rfl, rfl, errKept⟩

/-- Settles O58: the bytes before the last assemble the frame without touching what its operation writes, and the last
one runs the completion, which is that operation. -/
theorem receivingAFrameRunsItsOperation : Obligations.ReceivingAFrameRunsItsOperation := by
  unfold Obligations.ReceivingAFrameRunsItsOperation
  intro s e f op rest wf inv hunts cleared on lenOk tape decodes executes
  obtain ⟨legal, ⟨-, canonical⟩, -⟩ := inv
  have lenOk' : f.lenOk = true := (Frame.lenOk_iff f).mpr lenOk
  obtain ⟨r', takes, ck, last, sum, assembled⟩ := takesBytes_frame (c := s.cfg) lenOk hunts cleared canonical
  generalize hfirst : s.cfg.preamble.toList ++ f.summed ++ [f.ckh] = first at takes
  have bytes : f.bytes s.cfg = first ++ [f.ckl] := by simp [← hfirst, Frame.bytes]
  have count : first.length = f.len.toNat + 9 := by
    simp only [← hfirst, Frame.summed, Quad.toList, List.length_append, List.length_cons, List.length_nil, lenOk]
    omega
  have tapeSplit : s.tape = first.map byteIn ++ (byteIn f.ckl :: rest) := by
    rw [tape, bytes, List.map_append, List.append_assoc]
    rfl
  obtain ⟨t, receiving, rfl⟩ := takes.receiving wf rfl rfl legal on tapeSplit
  have tapeLeft : t.tape = byteIn f.ckl :: rest := by
    rw [receiving.tape, tapeSplit, List.drop_left' (List.length_map _)]
  obtain ⟨u, lastCycle, diag, snap, seq, tape', rstate, wfill, err⟩ := step_lastByte (receiving.cfg ▸ wf)
    receiving.legal (receiving.ctrl ▸ on) ck last assembled tapeLeft
  obtain rfl := eq_completed_of_decode executes decodes wf lenOk' rfl
  have now : t.now = s.now + BitVec.ofNat 32 (f.len.toNat + 9) := count ▸ receiving.now
  have ⟨diag', snap', seq'⟩ := completed_congr (s := t) (f := f)
    (t := { s with now := s.now + BitVec.ofNat 32 (f.len.toNat + 9), rx := { s.rx with sum := cksum f.summed } })
    receiving.cfg sum now receiving.diag receiving.snap receiving.seq
  refine ⟨u, ?runs, diag.trans diag', snap.trans snap', seq.trans seq', tape', rstate, wfill, err.trans receiving.err⟩
  case runs =>
    calc Host.Core.run Sys2Proof.core (f.len.toNat + 10) s
      _ = Host.Core.run Sys2Proof.core (first.length + 1) s := by rw [count]
      _ = Host.Core.run Sys2Proof.core 1 t := receiving.runs 1
      _ = .next u := run_succ (M := Sys2Proof.core) lastCycle 0

end Sys2Proof.Machine
end

section
/-! PROOFS. Every step keeps the invariant (40_frame_reader.md R146; 41_frame_validator.md R170; 43_command_dispatcher.md
R242): each of its parts belongs to the one unit that writes the registers it speaks of. -/
namespace Sys2Proof.Machine

namespace State

/-! ### The FrameReader's parts of the invariant, by RSTATE -/

/-- The parts of the invariant that speak of FrameReader registers. -/
def FrameRight (s : State) : Prop := s.ReaderRight ∧ s.SumRight ∧ s.LinkRight

theorem FrameRight.intact {s : State} (right : s.FrameRight) (alive : s.rx.rstate ≠ rFailed) :
    s.err.linkFail = false := by
  obtain ⟨-, -, link⟩ := right
  exact Bool.eq_false_iff.mpr fun failed => alive (link.mp failed)

section
variable {s : State} (canonical : s.rx.pbuf.wf = true)
include canonical

theorem frameRight_of_failed (hs : s.rx.rstate = rFailed) (failed : s.err.linkFail = true) : s.FrameRight := by
  simp [FrameRight, ReaderRight, SumRight, LinkRight, hs, canonical, failed]

variable (intact : s.err.linkFail = false)
include intact

theorem frameRight_of_hunt (hs : s.rx.rstate = rHunt) : s.FrameRight := by
  simp [FrameRight, ReaderRight, SumRight, LinkRight, hs, canonical, intact]

theorem frameRight_of_hdr (hs : s.rx.rstate = rHdr) (sum : s.rx.sum = cksum (s.rx.header.take s.rx.hcnt.toNat)) :
    s.FrameRight := by
  simp [FrameRight, ReaderRight, SumRight, LinkRight, hs, canonical, intact, sum]

theorem frameRight_of_pay (hs : s.rx.rstate = rPay) (more : s.rx.pcnt.toNat < s.rx.fLen.toNat)
    (sum : s.rx.sum = cksum (s.rx.header ++ s.rx.payload s.rx.pcnt.toNat)) : s.FrameRight := by
  simp [FrameRight, ReaderRight, SumRight, LinkRight, hs, canonical, intact, more, sum]

theorem frameRight_of_ck (hs : s.rx.rstate = rCk)
    (sum : s.rx.sum = cksum (s.rx.header ++ s.rx.payload s.rx.fLen.toNat)) : s.FrameRight := by
  simp [FrameRight, ReaderRight, SumRight, LinkRight, hs, canonical, intact, sum]

end

end State

/-! ### The operations that take a byte -/

section
variable {b : Byte} {s t : State} (right : s.FrameRight)
include right

/-- A match starts a frame of which no byte has been summed. -/
theorem execRxHunt_frameRight (hs : s.rx.rstate = rHunt) (h : execRxHunt b s = .next t) : t.FrameRight := by
  have intact := right.intact (by simp [hs])
  obtain ⟨⟨-, canonical⟩, -⟩ := right
  rcases execRxHunt_eq_next h with ⟨-, rfl⟩ | ⟨-, rfl⟩
  · exact State.frameRight_of_hdr canonical intact rfl rfl
  · exact State.frameRight_of_hunt canonical intact hs

/-- Each header byte extends the summed bytes by itself; after LEN no payload byte has been taken. -/
theorem execRxHdr_frameRight (hs : s.rx.rstate = rHdr) (h : execRxHdr b s = .next t) : t.FrameRight := by
  have intact := right.intact (by simp [hs])
  obtain ⟨⟨-, canonical⟩, ⟨sumHdr, -⟩, -⟩ := right
  have added : addByte s.rx.sum b = cksum (s.rx.header.take s.rx.hcnt.toNat ++ [b]) := by
    rw [cksum_append_one, sumHdr hs]
  have hcnt : s.rx.hcnt = 0 ∨ s.rx.hcnt = 1 ∨ s.rx.hcnt = 2 ∨ s.rx.hcnt = 3 := by
    generalize s.rx.hcnt = n
    revert n
    decide
  rcases hcnt with hn | hn | hn | hn
  all_goals rw [hn] at added
  · cases (execRxHdr_dst hn).symm.trans h
    exact State.frameRight_of_hdr canonical intact hs added
  · cases (execRxHdr_src hn).symm.trans h
    exact State.frameRight_of_hdr canonical intact hs added
  · cases (execRxHdr_cmd hn).symm.trans h
    exact State.frameRight_of_hdr canonical intact hs added
  · cases (execRxHdr_len hn).symm.trans h
    by_cases empty : b = 0
    · subst empty
      exact State.frameRight_of_ck canonical intact rfl added
    · have nonempty : 0 < b.toNat := Nat.pos_of_ne_zero fun zero => empty (BitVec.eq_of_toNat_eq zero)
      exact State.frameRight_of_pay canonical intact (if_neg empty) nonempty added

/-- A payload byte extends the summed bytes by the entry of PBUF that it is written to. -/
theorem execRxPay_frameRight (hs : s.rx.rstate = rPay) (h : execRxPay b s = .next t) : t.FrameRight := by
  have intact := right.intact (by simp [hs])
  obtain ⟨⟨more, canonical⟩, ⟨-, sumPay, -⟩, -⟩ := right
  have below := more hs
  have added : addByte s.rx.sum b =
      cksum (s.rx.header ++ (List.range (s.rx.pcnt.toNat + 1)).map (s.rx.pbuf.write s.rx.pcnt.toNat b).read) := by
    rw [payload_write canonical, ← List.append_assoc, cksum_append_one, sumPay hs]
    rfl
  obtain ⟨slot, rfl⟩ := execRxPay_eq_next h
  have written := Pbuf.write_wf _ _ b canonical slot
  have counted : (s.rx.pcnt + 1).toNat = s.rx.pcnt.toNat + 1 := by bv_omega
  by_cases last : s.rx.pcnt.toNat + 1 = s.rx.fLen.toNat
  · rw [last] at added
    exact State.frameRight_of_ck written intact (if_pos last) added
  · rw [← counted] at added
    refine State.frameRight_of_pay written intact ((if_neg last).trans hs) ?_ added
    show (s.rx.pcnt + 1).toNat < s.rx.fLen.toNat
    omega

theorem execRxCk0_frameRight (hs : s.rx.rstate = rCk) (h : execRxCk0 b s = .next t) : t.FrameRight := by
  have intact := right.intact (by simp [hs])
  obtain ⟨⟨-, canonical⟩, ⟨-, -, sumCk⟩, -⟩ := right
  cases h
  exact State.frameRight_of_ck canonical intact hs (sumCk hs)

/-- The completion writes no FrameReader register, and the hunt begins. -/
theorem execRxCk1_frameRight (hs : s.rx.rstate = rCk) (h : execRxCk1 b s = .next t) : t.FrameRight := by
  have intact := right.intact (by simp [hs])
  obtain ⟨⟨-, canonical⟩, -⟩ := right
  obtain ⟨e, completes, rfl⟩ := execRxCk1_eq_next h
  rw [completeFrame_frame completes]
  exact State.frameRight_of_hunt canonical intact rfl

end

/-! ### The FrameReader's unit -/

theorem rxUnit_frameRight {i : CycleIn} {s t : State} (right : s.FrameRight)
    (h : runUnit (.rx (s.rxSel i)) s = .next t) : t.FrameRight := by
  have ⟨⟨_, canonical⟩, _⟩ := right
  rcases rxUnit_cases h with ⟨-, fail⟩ | ⟨-, -, rfl⟩ | ⟨-, alive, -, rfl⟩ | ⟨-, -, -, -, rfl⟩ |
    ⟨-, -, -, ⟨hs, hunt⟩ | ⟨hs, hdr⟩ | ⟨hs, pay⟩ | ⟨hs, -, ck0⟩ | ⟨hs, -, ck1⟩⟩
  · cases fail
    exact State.frameRight_of_failed canonical rfl rfl
  · exact right
  · exact State.frameRight_of_hunt canonical (right.intact alive) rfl
  · exact right
  · exact execRxHunt_frameRight right hs hunt
  · exact execRxHdr_frameRight right hs hdr
  · exact execRxPay_frameRight right hs pay
  · exact execRxCk0_frameRight right hs ck0
  · exact execRxCk1_frameRight right hs ck1

/-- A decode sets the valid bit of every field that it writes. -/
theorem completeFrame_absentZero {f : Frame} {s t : State} (hs : s.AbsentZero) (h : completeFrame f s = .next t) :
    t.AbsentZero := by
  have ⟨equip, time, wtemp, atemp, addr, pump, ts⟩ := hs
  rcases completeFrame_eq_next h with ⟨-, ⟨-, rfl⟩ | ⟨-, rfl⟩ | ⟨-, rfl⟩⟩ | ⟨-, rfl⟩
  case inl.inl => exact ⟨equip, time, wtemp, atemp, addr, nofun, ts⟩
  case inl.inr.inl =>
    refine ⟨nofun, nofun, ?_, ?_, nofun, pump, nofun⟩
    all_goals
      dsimp only [State.storeUpdate_store, statusSnap]
      split
      · nofun
      · assumption
  case inl.inr.inr => exact hs
  case inr => exact hs

theorem rxUnit_absentZero {i : CycleIn} {s t : State} (absent : s.AbsentZero)
    (h : runUnit (.rx (s.rxSel i)) s = .next t) : t.AbsentZero := by
  rcases rxUnit_cases h with ⟨-, fail⟩ | ⟨-, -, rfl⟩ | ⟨-, -, -, rfl⟩ | ⟨-, -, -, -, rfl⟩ |
    ⟨-, -, -, ⟨-, hunt⟩ | ⟨-, hdr⟩ | ⟨-, pay⟩ | ⟨-, -, ck0⟩ | ⟨-, -, ck1⟩⟩
  · cases fail
    exact absent
  · exact absent
  · exact absent
  · exact absent
  · rcases execRxHunt_eq_next hunt with ⟨-, rfl⟩ | ⟨-, rfl⟩ <;> exact absent
  · rw [execRxHdr_frame hdr]
    exact absent
  · rw [(execRxPay_eq_next pay).2]
    exact absent
  · cases ck0
    exact absent
  · obtain ⟨e, completes, rfl⟩ := execRxCk1_eq_next ck1
    exact completeFrame_absentZero (t := e) absent completes

/-! ### The dispatcher's unit -/

/-- No completion flag is set. -/
abbrev Completion.none : Completion := { done := false, result := false, cause := false, aborted := false }

theorem State.CommandRight.res_of_busy {s : State} (right : s.CommandRight) (busy : s.dsp.dstate ≠ dIdle) :
    s.res = Completion.none ∧ 1 ≤ s.dsp.att.toNat := by
  obtain ⟨running, -⟩ := right
  obtain ⟨done, result, cause, aborted, att⟩ := running ((busy_iff s).mpr busy)
  refine ⟨?_, att⟩
  show Completion.mk s.res.done s.res.result s.res.cause s.res.aborted = _
  rw [done, result, cause, aborted]

section
variable {s : State} (elapsed : s.dsp.elapsed ≤ s.cfg.timeoutTicks + 1)
include elapsed

theorem commandRight_of_running (res : s.res = Completion.none) (att : 1 ≤ s.dsp.att.toNat)
    (txidx : s.dsp.dstate = dWait → s.dsp.txidx = 0) : s.CommandRight := by
  refine ⟨fun _ => ?_, fun _ => ?_, fun _ => ?_, elapsed, txidx⟩
  all_goals rw [res]
  exacts [⟨rfl, rfl, rfl, rfl, att⟩, ⟨rfl, rfl⟩]

theorem commandRight_of_idle (hs : s.dsp.dstate = dIdle)
    (timeout : s.res.result = false → s.res.cause = false ∧ s.res.aborted = false)
    (ended : s.res.done = false → s.res.result = false) : s.CommandRight :=
  ⟨fun busy => absurd hs ((busy_iff s).mp busy), timeout, ended, elapsed, fun waits => absurd (hs.symm.trans waits)
    (by decide)⟩

end

theorem tick_le (s : State) : s.tick ≤ s.cfg.timeoutTicks + 1 := Nat.min_le_right _ _

/-- A clear of the completion flags keeps the command state right, as does no clear. -/
theorem forDispatcher_commandRight {i : CycleIn} {s h : State} (right : s.CommandRight)
    (host : runUnit (State.hostCode i) s = .next h) : (s.forDispatcher h).CommandRight := by
  obtain ⟨running, timeout, ended, elapsed, txidx⟩ := right
  rcases hostUnit_res host with kept | cleared
  · refine ⟨?_, ?_, ?_, elapsed, txidx⟩
    all_goals rw [State.forDispatcher_res, kept]
    exacts [running, timeout, ended]
  · refine ⟨fun busy => ?_, ?_, ?_, elapsed, txidx⟩
    all_goals rw [State.forDispatcher_res, cleared]
    · obtain ⟨-, -, -, -, att⟩ := running busy
      exact ⟨rfl, rfl, rfl, rfl, att⟩
    · exact fun _ => ⟨rfl, rfl⟩
    · exact fun _ => rfl

theorem dspUnit_cfg {i : CycleIn} {s t : State} (h : runUnit (.dsp (s.dspSel i)) s = .next t) : t.cfg = s.cfg := by
  rw [dspUnit_frame h]

/-- While a command runs no completion flag is set, so a completion sets them from scratch. -/
theorem dspUnit_commandRight {i : CycleIn} {s t : State} (right : s.CommandRight)
    (h : runUnit (.dsp (s.dspSel i)) s = .next t) : t.CommandRight := by
  rcases dspUnit_cases h with ⟨st, feat, -, -, rfl⟩ | ⟨-, -, rfl⟩ | ⟨-, -, timeout⟩ | ⟨hs, -, -, -, txEnd⟩ |
    ⟨hs, -, notEnd, tx⟩ | ⟨hs, -, -, success⟩ | ⟨-, -, -, timeout⟩ | ⟨hs, -, -, -, left, retry⟩ |
    ⟨hs, -, -, -, -, exhaust⟩ | ⟨hs, -, -, wait⟩
  · exact commandRight_of_running (Nat.zero_le _) rfl le_rfl fun _ => rfl
  · exact right
  · cases timeout
    exact commandRight_of_idle (tick_le s) rfl nofun nofun
  · obtain ⟨b, -, rfl⟩ := execDspTxEnd_eq_next txEnd
    obtain ⟨res, att⟩ := right.res_of_busy (by simp [hs])
    exact commandRight_of_running (tick_le s) res att fun _ => rfl
  · obtain ⟨b, -, rfl⟩ := execDspTx_eq_next notEnd tx
    obtain ⟨res, att⟩ := right.res_of_busy (by simp [hs])
    exact commandRight_of_running (tick_le s) res att fun waits => absurd (hs.symm.trans waits) (by decide)
  · cases success
    obtain ⟨res, -⟩ := right.res_of_busy (by simp [hs])
    exact commandRight_of_idle (tick_le s) rfl (fun _ => ⟨rfl, congrArg Completion.aborted res⟩) nofun
  · cases timeout
    exact commandRight_of_idle (tick_le s) rfl nofun nofun
  · cases retry
    obtain ⟨res, att⟩ := right.res_of_busy (by simp [hs])
    have attempts := (attLeft_iff s).mp left
    have again : 1 ≤ (s.dsp.att + 1).toNat := by bv_omega
    exact commandRight_of_running (tick_le s) res again nofun
  · cases exhaust
    exact commandRight_of_idle (tick_le s) rfl nofun nofun
  · cases wait
    obtain ⟨res, att⟩ := right.res_of_busy (by simp [hs])
    obtain ⟨-, -, -, -, txidx⟩ := right
    exact commandRight_of_running (tick_le s) res att txidx

/-! ### The statement -/

/-- Settles O55: a reset cycle ends in the state of `invariantHoldsAfterReset`; in any other the FrameReader's unit keeps
the parts about a frame and the snapshot, the dispatcher's unit the part about the command. -/
theorem stepKeepsTheInvariant : Obligations.StepKeepsTheInvariant := by
  unfold Obligations.StepKeepsTheInvariant
  intro s t ⟨_, readerRight, sumRight, linkRight, absent, command⟩ hstep
  have legal := step_legal hstep
  obtain ⟨-, ⟨-, rfl⟩ | ⟨-, -, q, h, d, r, -, host, dispatcher, reader, rfl⟩⟩ := runCycle_eq_next hstep
  case inl => exact invariantHoldsAfterReset s.cfg s.tape.tail
  case inr =>
    obtain ⟨readerAfter, sumAfter, linkAfter⟩ : r.FrameRight := rxUnit_frameRight (i := s.input)
      (s := s.beginCycle.forReader h d) ⟨readerRight, sumRight, linkRight⟩ reader
    have absentAfter : r.AbsentZero :=
      rxUnit_absentZero (i := s.input) (s := s.beginCycle.forReader h d) absent reader
    have commandAfter : d.CommandRight := dspUnit_commandRight (i := s.input) (s := s.beginCycle.forDispatcher h)
      (forDispatcher_commandRight (s := s.beginCycle) command host) dispatcher
    obtain ⟨running, timeout, ended, elapsed, txidx⟩ := commandAfter
    rw [dspUnit_cfg (i := s.input) (s := s.beginCycle.forDispatcher h) dispatcher] at elapsed
    exact ⟨legal, readerAfter, sumAfter, linkAfter, absentAfter, running, timeout, ended, elapsed, txidx⟩

end Sys2Proof.Machine
end

section
/-! PROOFS. The additive checksum (41_frame_validator.md R170 to R176): its incremental form, the comparison byte by
byte, what one changed byte does to it, and the command frame that carries it. -/
namespace Sys2Proof

open Machine

/-! ### The incremental sum -/

/-- Adding bytes to the checksum of the bytes before gives the checksum of all of them. -/
theorem foldl_addByte_cksum (before bs : List Byte) : bs.foldl addByte (cksum before) = cksum (before ++ bs) := by
  induction bs generalizing before with
  | nil => rw [List.foldl_nil, List.append_nil]
  | cons b bs ih => rw [List.foldl_cons, ← cksum_append_one, ih, List.append_assoc, List.singleton_append]

/-- Settles O9: SUM starts as the checksum of no bytes. -/
theorem incrementalChecksumIsTheWholeSum : Obligations.IncrementalChecksumIsTheWholeSum := by
  unfold Obligations.IncrementalChecksumIsTheWholeSum
  intro bs
  have whole : bs.foldl addByte 0 = cksum bs := foldl_addByte_cksum [] bs
  exact ⟨by rw [whole, cksum_toNat], whole⟩

/-! ### The comparison -/

/-- Settles O10: the value of the trailer has CKH and CKL as quotient and remainder. -/
theorem byteWiseComparisonIsEquivalent : Obligations.ByteWiseComparisonIsEquivalent := by
  unfold Obligations.ByteWiseComparisonIsEquivalent
  intro f
  have low := f.ckl.isLt
  rw [Frame.valid_iff, ck_eq_iff, cksum_toNat]
  omega

/-- Settles O32: CNT_CKERR counts with saturation, and the trailer's value is that of its two bytes. -/
theorem rejectedFrameIsOnlyLogged : Obligations.RejectedFrameIsOnlyLogged := by
  unfold Obligations.RejectedFrameIsOnlyLogged
  intro s f ckr
  have transmitted : ckr = f.ck := (beHalf_eq_ofNat f.ckh f.ckl).symm
  rw [transmitted, ← satIncr_eq_ofNat]
  rfl

/-! ### One changed byte -/

/-- Two bytes differ by less than 65536, so one changed byte changes the reduced sum (R176(e)). -/
theorem cksum_set_ne {bs : List Byte} {n : Nat} {x b : Byte} (found : bs[n]? = some x) (changed : b ≠ x) :
    cksum (bs.set n b) ≠ cksum bs := by
  obtain ⟨inside, rfl⟩ := List.getElem?_eq_some_iff.mp found
  obtain ⟨before, after, parts, -, replaced⟩ := List.exists_of_set (a' := b) inside
  intro same
  have sums := congrArg BitVec.toNat same
  generalize bs[n] = x at parts changed
  rw [replaced, parts, cksum_toNat, cksum_toNat] at sums
  simp only [List.map_append, List.map_cons, List.sum_append, List.sum_cons] at sums
  have := b.isLt
  have := x.isLt
  exact changed (BitVec.eq_of_toNat_eq (by omega))

/-- A frame with the trailer of a valid one and one summed byte changed is rejected. -/
theorem Frame.not_valid_of_summed_set {f g : Frame} {n : Nat} {x b : Byte} (valid : f.valid = true) (ck : g.ck = f.ck)
    (set : g.summed = f.summed.set n b) (found : f.summed[n]? = some x) (changed : b ≠ x) : g.valid = false := by
  refine Bool.eq_false_iff.mpr fun accepted => cksum_set_ne found changed ?_
  rw [← set, ← (Frame.valid_iff g).mp accepted, ck, (Frame.valid_iff f).mp valid]

/-- A valid frame has one high checksum byte: with any other it is rejected. -/
theorem Frame.not_valid_of_ckh_ne {f : Frame} {b : Byte} (valid : f.valid = true) (changed : b ≠ f.ckh) :
    ({ f with ckh := b } : Frame).valid = false := by
  refine Bool.eq_false_iff.mpr fun accepted => changed (BitVec.eq_of_toNat_eq ?_)
  have sameCk : beHalf b f.ckl = beHalf f.ckh f.ckl :=
    ((Frame.valid_iff _).mp accepted).trans ((Frame.valid_iff f).mp valid).symm
  have sameValue := congrArg BitVec.toNat sameCk
  rw [beHalf_toNat, beHalf_toNat] at sameValue
  omega

/-- Settles O11: DST, SRC, CMD and the payload are summed bytes, at 0, 1, 2 and from 4 on. -/
theorem oneChangedByteIsDetected : Obligations.OneChangedByteIsDetected := by
  unfold Obligations.OneChangedByteIsDetected
  intro f b valid
  refine ⟨?dst, ?src, ?cmd, Frame.not_valid_of_ckh_ne valid,
    fun changed => Bool.eq_false_iff.mpr (Frame.not_valid_of_ckl_ne valid changed), ?payload⟩
  case dst => exact Frame.not_valid_of_summed_set (n := 0) valid rfl rfl rfl
  case src => exact Frame.not_valid_of_summed_set (n := 1) valid rfl rfl rfl
  case cmd => exact Frame.not_valid_of_summed_set (n := 2) valid rfl rfl rfl
  case payload => exact fun n x found => Frame.not_valid_of_summed_set (n := n + 4) valid rfl rfl found

/-! ### The command frame -/

/-- CMDFRAME is the frame that R119 builds from its header and payload, for every feature that exists. -/
theorem cmdFrameOf_eq (c : Params) {feat : BitVec 4} (st : Bool) (known : feat.toNat < 9) :
    cmdFrameOf c feat st =
      some (framed c.addrRemote c.addrMain c.cmdSet [c.featureId.toList.getD feat.toNat 0, bitByte st]) := by
  have inside : feat.toNat < c.featureId.toList.length := by simpa using known
  have named : c.featureByte feat = some (c.featureId.toList.getD feat.toNat 0) := by
    rw [Params.featureByte, List.getElem?_eq_getElem inside, List.getD_eq_getElem _ _ inside]
  rw [cmdFrameOf, named]
  rfl

/-- An accepted frame too short for STATUS is TELEM or SKIP. -/
theorem decode_short_frame_bytes (c : Params) {f : Frame} (lenOk : f.lenOk = true) (valid : f.valid = true)
    (short : f.len.toNat ≤ 8) :
    decode c (.frame (f.bytes c)) = .ok (.frameSkip f) ∨ decode c (.frame (f.bytes c)) = .ok (.frameTelem f) := by
  by_cases telem : f.src = c.addrPump ∧ f.cmd = c.cmdTelem ∧ f.len.toNat + 10 = c.telemFrameLen
  · exact .inr (decode_telem_bytes lenOk valid (Frame.kind_telem telem))
  · exact .inl (decode_skip_bytes lenOk valid (Frame.kind_skip telem short))

/-- Settles O5: the trailer is `framed`'s, which is valid by construction, and LEN is 2. -/
theorem everyCommandFrameIsAccepted : Obligations.EveryCommandFrameIsAccepted := by
  unfold Obligations.EveryCommandFrameIsAccepted
  intro c feat st known fid v sum
  have two : [fid, v].length ≤ 255 := Nat.le_of_ble_eq_true rfl
  have total : (cksum ([c.addrRemote, c.addrMain, c.cmdSet, 2] ++ [fid, v])).toNat = sum := by
    refine (framed_sum _ _ _ two).trans ?_
    simp [sum, Nat.add_assoc]
  refine ⟨framed c.addrRemote c.addrMain c.cmdSet [fid, v], cmdFrameOf_eq c st known, ?bytes, ?ckh, ?accepted⟩
  case bytes =>
    rw [← total, ← hiByte_eq_ofNat, ← loByte_eq_ofNat]
    rfl
  case ckh =>
    have bit : v.toNat ≤ 1 := by
      cases st <;> decide
    show (hiByte (cksum ([c.addrRemote, c.addrMain, c.cmdSet, 2] ++ [fid, v]))).toNat ≤ 3
    rw [hiByte_toNat, total]
    omega
  case accepted =>
    exact decode_short_frame_bytes c (framed_lenOk _ _ _ two) (framed_valid _ _ _ _) (Nat.le_of_ble_eq_true rfl)

end Sys2Proof
end

section
/-! PROOFS. The StatusDecoder (42_status_decoder.md R190 to R202): the class of a frame from its bytes, what the
frame of each class writes, and the store along a step. -/
namespace Sys2Proof.Machine

/-! ### The class of a frame -/

/-- The trailer is compared with the sum of header and payload (30_encoding.md R102, R103). -/
theorem valid_iff_sum (f : Frame) : f.valid = true ↔ 256 * f.ckh.toNat + f.ckl.toNat =
    ([f.dst.toNat, f.src.toNat, f.cmd.toNat, f.len.toNat] ++ f.payload.map BitVec.toNat).sum % 65536 := by
  rw [Frame.valid_iff, ck_eq_iff, cksum_toNat]
  rfl

/-- Settles O8: the bytes are a frame again, and its class is read from source, command and length. -/
theorem frameBytesDecodeToTheirClass : Obligations.FrameBytesDecodeToTheirClass := by
  unfold Obligations.FrameBytesDecodeToTheirClass
  intro c f length sum telem
  have lenOk : f.lenOk = true := (Frame.lenOk_iff f).mpr length
  have valid : f.valid = true ↔ 256 * f.ckh.toNat + f.ckl.toNat = sum := valid_iff_sum f
  refine ⟨fun differ => decode_badck_bytes c lenOk (differ ∘ valid.mp), fun agree => ?accepted⟩
  case accepted =>
    have accepted : f.valid = true := valid.mpr agree
    exact ⟨fun isTelem => decode_telem_bytes lenOk accepted (Frame.kind_telem isTelem),
      fun notTelem long => decode_status_bytes lenOk accepted (Frame.kind_status notTelem long),
      fun notTelem short => decode_skip_bytes lenOk accepted (Frame.kind_skip notTelem short)⟩

theorem telem_length {c : Params} {f : Frame} (kind : f.kind c = .telem) : f.len.toNat + 10 = c.telemFrameLen := by
  unfold Frame.kind classify at kind
  split at kind
  case isTrue telem =>
    obtain ⟨-, -, length⟩ := telem
    exact (flen_eq f.len).symm.trans length
  case isFalse => split at kind <;> cases kind

theorem status_length {c : Params} {f : Frame} (kind : f.kind c = .status) : 8 < f.len.toNat := by
  unfold Frame.kind classify at kind
  split at kind
  case isTrue => cases kind
  case isFalse =>
    split at kind
    case isTrue long => exact long
    case isFalse => cases kind

/-! ### What an accepted frame writes -/

theorem accept_eq (s : State) (f : Frame) : s.accept f = { s with
    diag := { s.diag with
      cntOk := BitVec.ofNat 16 (min (s.diag.cntOk.toNat + 1) 65535)
      lfDst := f.dst, lfSrc := f.src, lfCmd := f.cmd, lfLen := f.len } } := by
  rw [State.accept, satIncr_eq_ofNat]

theorem storeUpdate_eq (s : State) (n : Snapshot) : s.storeUpdate n = { s with
    store := { snap := n, fresh := true, seq := BitVec.ofNat 16 ((s.store.seq.toNat + 1) % 65536) } } := by
  have next : s.store.seq + 1 = BitVec.ofNat 16 ((s.store.seq.toNat + 1) % 65536) :=
    BitVec.eq_of_toNat_eq (by simp)
  rw [State.storeUpdate, next]

theorem equipOf_eq_ofNat (e1 e2 : Byte) : equipOf e1 e2 = BitVec.ofNat 9 (256 * (e2.toNat % 2) + e1.toNat) := by
  rw [← equipOf_toNat, BitVec.ofNat_toNat, BitVec.setWidth_eq]

/-- Settles O29: a TELEM frame has the bytes that DECODE_TELEM reads (`telemReadable_of_kind`). -/
theorem telemetryFrameUpdatesThePump : Obligations.TelemetryFrameUpdatesThePump := by
  unfold Obligations.TelemetryFrameUpdatesThePump
  intro s f wf frameWf
  simp only [Instr.wf, Bool.and_eq_true, beq_iff_eq] at frameWf
  obtain ⟨⟨lenOk, -⟩, kind⟩ := frameWf
  have runs : exec (.frameTelem f) s = .next ((s.accept f).storeUpdate (telemSnap s.cfg f s.store.snap)) :=
    if_pos (telemReadable_of_kind wf lenOk kind)
  rw [runs, storeUpdate_eq, accept_eq, telemSnap, beHalf_eq_ofNat, beHalf_eq_ofNat]

/-- Settles O30: a STATUS frame has the bytes that DECODE_STATUS always reads (`statusReadable_of_kind`). -/
theorem statusFrameUpdatesTheSnapshot : Obligations.StatusFrameUpdatesTheSnapshot := by
  unfold Obligations.StatusFrameUpdatesTheSnapshot
  intro s f wf frameWf c n
  simp only [Instr.wf, Bool.and_eq_true, beq_iff_eq] at frameWf
  obtain ⟨⟨lenOk, -⟩, kind⟩ := frameWf
  have runs : exec (.frameStatus f) s = .next ((s.accept f).storeUpdate (statusSnap c f s.now n)) :=
    if_pos (statusReadable_of_kind wf lenOk kind)
  rw [runs, storeUpdate_eq, accept_eq, statusSnap, equipOf_eq_ofNat]

/-- Settles O31: DECODE_SKIP only raises its event. -/
theorem skippedFrameLeavesTheStore : Obligations.SkippedFrameLeavesTheStore := by
  unfold Obligations.SkippedFrameLeavesTheStore
  intro s f
  have runs : exec (.frameSkip f) s = .next ((s.accept f).raise .decodeSkip) := rfl
  rw [runs, accept_eq]
  rfl

/-! ### FRESH in a step -/

/-- The cycle ends the command frame and with it invalidates the store (43_command_dispatcher.md R234; R201). -/
def State.EndsCommandFrame (s : State) (i : CycleIn) : Prop :=
  s.dsp.dstate = 1 ∧ s.dsp.elapsed ≤ 5 * s.cfg.fClkHz ∧ i.txReady = true ∧ s.dsp.txidx = 11

theorem not_endsCommandFrame_of_dstate {s : State} {i : CycleIn} {d : BitVec 2} (hs : s.dsp.dstate = d) (hd : d ≠ 1) :
    ¬ s.EndsCommandFrame i :=
  fun ⟨transmits, _⟩ => hd (hs.symm.trans transmits)

theorem not_endsCommandFrame_of_tmo {s : State} {i : CycleIn} (timeout : s.tmo = true) : ¬ s.EndsCommandFrame i :=
  fun ⟨_, inTime, _⟩ => Nat.not_le_of_lt ((tmo_eq_true_iff s).mp timeout) inTime

/-- The dispatcher's unit clears FRESH in the cycle that ends the command frame and writes it in no other. -/
theorem dspUnit_fresh {i : CycleIn} {s t : State} (h : runUnit (.dsp (s.dspSel i)) s = .next t) :
    (s.EndsCommandFrame i ∧ t.store.fresh = false) ∨ (¬ s.EndsCommandFrame i ∧ t.store.fresh = s.store.fresh) := by
  rcases dspUnit_cases h with ⟨st, feat, hs, -, rfl⟩ | ⟨hs, -, rfl⟩ | ⟨-, late, timeout⟩ |
    ⟨hs, inTime, ready, last, txEnd⟩ | ⟨-, -, notEnd, tx⟩ | ⟨hs, -, -, success⟩ | ⟨-, -, late, timeout⟩ |
    ⟨hs, -, -, -, -, retry⟩ | ⟨hs, -, -, -, -, exhaust⟩ | ⟨hs, -, -, wait⟩
  · exact .inr ⟨not_endsCommandFrame_of_dstate hs (by decide), rfl⟩
  · exact .inr ⟨not_endsCommandFrame_of_dstate hs (by decide), rfl⟩
  · cases timeout
    exact .inr ⟨not_endsCommandFrame_of_tmo late, rfl⟩
  · obtain ⟨b, -, rfl⟩ := execDspTxEnd_eq_next txEnd
    exact .inl ⟨⟨hs, (tmo_eq_false_iff s).mp inTime, ready, (lastByte_iff s).mp last⟩, rfl⟩
  · obtain ⟨b, -, rfl⟩ := execDspTx_eq_next notEnd tx
    refine .inr ⟨fun ⟨_, _, ready, last⟩ => ?_, rfl⟩
    simp [ready, (lastByte_iff s).mpr last] at notEnd
  · cases success
    exact .inr ⟨not_endsCommandFrame_of_dstate hs (by decide), rfl⟩
  · cases timeout
    exact .inr ⟨not_endsCommandFrame_of_tmo late, rfl⟩
  · cases retry
    exact .inr ⟨not_endsCommandFrame_of_dstate hs (by decide), rfl⟩
  · cases exhaust
    exact .inr ⟨not_endsCommandFrame_of_dstate hs (by decide), rfl⟩
  · cases wait
    exact .inr ⟨not_endsCommandFrame_of_dstate hs (by decide), rfl⟩

/-- Settles O45: the FrameReader's unit takes FRESH as the dispatcher's unit leaves it, and either keeps the store or
updates all of it (`rxUnit_store`). -/
theorem updateBeatsInvalidation : Obligations.UpdateBeatsInvalidation := by
  unfold Obligations.UpdateBeatsInvalidation
  intro s t hstep hrst updates invalidates
  obtain ⟨-, ⟨reset, -⟩ | ⟨-, -, q, h, d, r, -, -, dispatcher, reader, rfl⟩⟩ := runCycle_eq_next hstep
  case inl => exact absurd (reset.symm.trans hrst) (by decide)
  rw [State.merge_store]
  rcases rxUnit_store (s := s.beginCycle.forReader h d) reader with kept | ⟨n, updated⟩
  case inr =>
    have changed : updates := by simp [updates, updated]
    exact ⟨fun _ => by rw [updated, State.storeUpdate_store], fun same => absurd changed same,
      fun same => absurd changed same⟩
  case inl =>
    have same : ¬ updates := by simp [updates, kept]
    have fresh : r.store.fresh = d.store.fresh := by rw [kept, State.forReader_store]
    rw [fresh]
    rcases dspUnit_fresh (i := s.input) (s := s.beginCycle.forDispatcher h) dispatcher with
      ⟨ends, cleared⟩ | ⟨continues, untouched⟩
    · exact ⟨fun changed => absurd changed same, fun _ _ => cleared, fun _ continues => absurd ends continues⟩
    · exact ⟨fun changed => absurd changed same, fun _ ends => absurd ends continues, fun _ _ => untouched⟩

/-! ### The snapshot in a step -/

/-- The last byte of a frame with the right checksum arrives (40_frame_reader.md R148; 41_frame_validator.md R173). -/
def State.Accepts (s : State) (i : CycleIn) : Prop :=
  i.chanFail = false ∧ s.ctrl.rxEn = true ∧ i.rxValid = true ∧ s.rx.rstate = 3 ∧ s.rx.kcnt = 1 ∧
    256 * s.rx.ckh.toNat + i.rxData.toNat = s.rx.sum.toNat

/-- The snapshot `n` is the decode of the frame `f` on the state `s`, whose length allows it (R190 to R192). -/
def State.Decodes (s : State) (f : Frame) (n : Snapshot) : Prop :=
  (f.len.toNat + 10 = s.cfg.telemFrameLen ∧ n = telemSnap s.cfg f s.store.snap) ∨
  (8 < f.len.toNat ∧ n = statusSnap s.cfg f s.now s.store.snap)

/-- A completed frame writes the store only where its checksum is right, and then with its decode. -/
theorem completeFrame_decodes {f : Frame} {s t : State} (h : completeFrame f s = .next t) :
    t.store = s.store ∨ (f.ck = s.rx.sum ∧ s.Decodes f t.store.snap) := by
  rcases completeFrame_eq_next h with ⟨agree, ⟨kind, rfl⟩ | ⟨kind, rfl⟩ | ⟨-, rfl⟩⟩ | ⟨-, rfl⟩
  case inl.inl => exact .inr ⟨agree, .inl ⟨telem_length kind, rfl⟩⟩
  case inl.inr.inl => exact .inr ⟨agree, .inr ⟨status_length kind, rfl⟩⟩
  case inl.inr.inr => exact .inl rfl
  case inr => exact .inl rfl

/-- The FrameReader's unit writes the store only in the cycle of an accepted frame, and then with its decode. -/
theorem rxUnit_decodes {i : CycleIn} {s t : State} (h : runUnit (.rx (s.rxSel i)) s = .next t) :
    t.store = s.store ∨ (s.Accepts i ∧ s.Decodes (s.rx.frame i.rxData) t.store.snap) := by
  rcases rxUnit_cases h with ⟨-, fail⟩ | ⟨-, -, rfl⟩ | ⟨-, -, -, rfl⟩ | ⟨-, -, -, -, rfl⟩ |
    ⟨intact, on, valid, ⟨-, hunt⟩ | ⟨-, hdr⟩ | ⟨-, pay⟩ | ⟨-, -, ck0⟩ | ⟨hs, hk, ck1⟩⟩
  · cases fail
    exact .inl rfl
  · exact .inl rfl
  · exact .inl rfl
  · exact .inl rfl
  · rcases execRxHunt_eq_next hunt with ⟨-, rfl⟩ | ⟨-, rfl⟩ <;> exact .inl rfl
  · rw [execRxHdr_frame hdr]
    exact .inl rfl
  · rw [(execRxPay_eq_next pay).2]
    exact .inl rfl
  · cases ck0
    exact .inl rfl
  · obtain ⟨e, completes, rfl⟩ := execRxCk1_eq_next ck1
    rw [State.hunt_store]
    exact (completeFrame_decodes completes).imp_right fun ⟨agree, decodes⟩ =>
      ⟨⟨intact, on, valid, hs, hk, (ck_eq_iff _ _).mp agree⟩, decodes⟩

/-- A step without reset changes snapshot and SEQ only in the cycle of an accepted frame, and the snapshot to its
decode. -/
theorem step_decodes {s t : State} (hrst : s.input.rst = false) (hstep : step s = .next t) :
    (t.store.snap = s.store.snap ∧ t.store.seq = s.store.seq) ∨
      (s.Accepts s.input ∧ s.Decodes (s.rx.frame s.input.rxData) t.store.snap) := by
  obtain ⟨-, ⟨reset, -⟩ | ⟨-, -, q, h, d, r, -, -, -, reader, rfl⟩⟩ := runCycle_eq_next hstep
  case inl => exact absurd (reset.symm.trans hrst) (by decide)
  rw [State.merge_store]
  rcases rxUnit_decodes (i := s.input) (s := s.beginCycle.forReader h d) reader with kept | decoded
  · exact .inl (by simp [kept])
  · exact .inr decoded

/-- Settles O47: a decode of a TELEM frame writes the pump fields, one of a STATUS frame the others and V_EQUIP with
them. -/
theorem onlyAcceptedFramesChangeTheStore : Obligations.OnlyAcceptedFramesChangeTheStore := by
  unfold Obligations.OnlyAcceptedFramesChangeTheStore
  intro s t hstep hrst n m accepts
  rcases step_decodes hrst hstep with ⟨snap, seq⟩ | ⟨accepted, ⟨length, snap⟩ | ⟨long, snap⟩⟩
  all_goals
    have after : m = _ := snap
    rw [after]
  case inl => exact ⟨fun _ => rfl, fun _ => ⟨rfl, rfl, rfl⟩, id, fun _ => ⟨snap, seq⟩⟩
  case inr.inl =>
    exact ⟨fun _ => rfl, fun other => absurd length other, id, fun rejected => absurd accepted rejected⟩
  case inr.inr =>
    exact ⟨fun short => absurd long (Nat.not_lt_of_le short), fun _ => ⟨rfl, rfl, rfl⟩, fun _ => rfl,
      fun rejected => absurd accepted rejected⟩

end Sys2Proof.Machine
end

section
/-! PROOFS. The CommandDispatcher's operations one at a time (43_command_dispatcher.md R231 to R243): the byte that the
command frame offers, and what each operation writes. -/
namespace Sys2Proof.Machine

/-! ### The byte source -/

/-- Settles O33: the bytes of the frame are those of `everyCommandFrameIsAccepted`, and TXIDX is inside. -/
theorem commandFrameByteIsOffered : Obligations.CommandFrameByteIsOffered := by
  unfold Obligations.CommandFrameByteIsOffered
  intro s feat st known index c fid v sum bytes
  obtain ⟨f, made, sends, -⟩ := everyCommandFrameIsAccepted c feat st known
  have inside : s.dsp.txidx.toNat < bytes.length := Nat.lt_succ_of_le index
  have offered : s.txByte feat st = some (bytes.getD s.dsp.txidx.toNat 0) := by
    rw [State.txByte, cmdByte, made, List.getD_eq_getElem _ _ inside]
    exact (congrArg (·[s.dsp.txidx.toNat]?) sends).trans (List.getElem?_eq_getElem inside)
  show execCmdFrame feat st s = _
  rw [execCmdFrame, offered]
  rfl

theorem execCmdFrame_of_txByte {s : State} {feat : BitVec 4} {st : Bool} {b : Byte}
    (byte : s.txByte feat st = some b) : execCmdFrame feat st s = .next (s.offer b) := by
  rw [execCmdFrame, byte]

/-! ### Transmission -/

theorem add_one_eq_ofNat (x : BitVec 4) : x + 1 = BitVec.ofNat 4 (x.toNat + 1) :=
  BitVec.eq_of_toNat_eq (by simp)

/-- TXIDX after a byte is offered, by whether it is taken. -/
theorem txidx_after_offer (x : BitVec 4) (ready : Bool) :
    (if ready then x + 1 else x) = BitVec.ofNat 4 (x.toNat + ready.toNat) := by
  cases ready with
  | false => simp
  | true => exact add_one_eq_ofNat x

/-- Settles O35: the operation ends the frame where its byte 11 is taken, and else goes on with TXIDX and ELAPSED. -/
theorem transmittingCycleOffersTheNextByte : Obligations.TransmittingCycleOffersTheNextByte := by
  unfold Obligations.TransmittingCycleOffersTheNextByte
  intro s ready known index
  obtain ⟨b, byte⟩ := txByte_isSome (st := s.dsp.cSt) known index
  have offers := execCmdFrame_of_txByte byte
  have ends_iff : (ready && s.lastByte) = true ↔ ready = true ∧ s.dsp.txidx = 11 := by
    rw [Bool.and_eq_true, lastByte_iff]
  refine ⟨s.offer b, offers, fun ends => if_pos (ends_iff.mpr ends), fun continues => ?_⟩
  show execDspTx ready s = _
  rw [execDspTx, if_neg (continues ∘ ends_iff.mp), offers, txidx_after_offer]
  rfl

/-- Settles O36: DSP.TX_END is the byte source followed by the writes of R234. -/
theorem endOfFrameInvalidatesAndWaits : Obligations.EndOfFrameInvalidatesAndWaits := by
  unfold Obligations.EndOfFrameInvalidatesAndWaits
  intro s known index
  obtain ⟨b, byte⟩ := txByte_isSome (st := s.dsp.cSt) known index
  have offers := execCmdFrame_of_txByte byte
  refine ⟨s.offer b, offers, ?_⟩
  show execDspTxEnd s = _
  rw [execDspTxEnd, offers]
  rfl

/-! ### The operations that offer no byte -/

/-- ELAPSED advances up to TIMEOUT_TICKS + 1 (43_command_dispatcher.md R242). -/
theorem tick_eq (s : State) : s.tick = min (s.dsp.elapsed + 1) (5 * s.cfg.fClkHz + 1) := rfl

/-- Settles O34: neither operation does more than `State.noTx`, but for ELAPSED in WAIT. -/
theorem idleAndWaitingCyclesOfferNothing : Obligations.IdleAndWaitingCyclesOfferNothing := by
  unfold Obligations.IdleAndWaitingCyclesOfferNothing
  intro s
  rw [← tick_eq]
  exact ⟨rfl, rfl⟩

/-- Settles O37: the end of a command with ABORTED by the state that it ends from. -/
theorem wallTimeoutEndsTheCommand : Obligations.WallTimeoutEndsTheCommand := by
  unfold Obligations.WallTimeoutEndsTheCommand
  intro s base
  have ends (d : BitVec 2) : exec (.dspWallTimeout d) s = .next (base (if d = dTx then true else s.res.aborted)) := rfl
  exact ⟨ends 1, ends 2⟩

/-- Settles O38: success and exhaustion are `State.finish`; a retry counts ATT in its four bits. -/
theorem confirmationRetryAndExhaustion : Obligations.ConfirmationRetryAndExhaustion := by
  unfold Obligations.ConfirmationRetryAndExhaustion
  intro s elapsed out
  refine ⟨rfl, ?retry, rfl⟩
  rw [← add_one_eq_ofNat]
  rfl

end Sys2Proof.Machine
end

section
/-! PROOFS. The dispatcher's selection (43_command_dispatcher.md R230, R233, R236): the condition of each row selects
it. -/
namespace Sys2Proof.Machine

/-! ### The command that starts -/

/-- A word decodes to SETF exactly where it is legal and its OP is 1. -/
theorem decodeCmd_eq_setf_iff (w : Half) (st : Bool) (feat : BitVec 4) :
    decodeCmd w = .setf st feat ↔
      illegalWord w = false ∧ w.extractLsb' 12 4 = 1 ∧ w.getLsbD 4 = st ∧ w.extractLsb' 0 4 = feat := by
  have op := field_toNat w 12 4
  have index := field_toNat w 0 4
  have bound := w.isLt
  have legal_iff : illegalWord w = false ↔ _ := Bool.eq_false_iff.trans (not_congr (illegalWord_iff w))
  constructor
  · intro setf
    unfold decodeCmd at setf
    dsimp only at setf
    -- Of the branches only the one of a legal OP 1 is a SETF.
    split_ifs at setf with _ _ isSetf fields
    cases setf
    obtain ⟨unreserved, named⟩ := fields
    have := (field_eq_zero_iff w 5 7).mp unreserved
    have : Config.nFeatures = 9 := rfl
    exact ⟨legal_iff.mpr (by omega), BitVec.eq_of_toNat_eq isSetf, rfl, rfl⟩
  · rintro ⟨legal, isSetf, rfl, rfl⟩
    have := legal_iff.mp legal
    have : (w.extractLsb' 12 4).toNat = 1 := by rw [isSetf]; rfl
    have unreserved : w.extractLsb' 5 7 = 0 := (field_eq_zero_iff w 5 7).mpr (by omega)
    have named : (w.extractLsb' 0 4).toNat < Config.nFeatures := by
      have : Config.nFeatures = 9 := rfl
      omega
    unfold decodeCmd
    rw [if_neg (by omega), if_pos this, if_pos ⟨unreserved, named⟩]

/-- The dispatcher starts exactly the command that the host writes to CMD (44_host_interface.md R273). -/
theorem startOf_eq_some_iff (i : CycleIn) (st : Bool) (feat : BitVec 4) :
    State.startOf i = some (st, feat) ↔ i.hWe = true ∧ i.hAddr = 1 ∧ decodeCmd i.hWdata = .setf st feat := by
  rw [decodeCmd_eq_setf_iff]
  simp [State.startOf, and_assoc]

/-! ### The rows of dsp_sel2 -/

section
variable {x : DspSel}

section
variable (hs : x.dstate = 0)
include hs

theorem decodeDsp_start {st : Bool} {feat : BitVec 4} (start : x.start = some (st, feat)) :
    decodeDsp x = .ok (.dspStart st feat) := by
  rw [decodeDsp, if_pos hs, start]

theorem decodeDsp_idle (quiet : x.start = none) : decodeDsp x = .ok .dspIdle := by
  rw [decodeDsp, if_pos hs, quiet]

end

section
variable (hs : x.dstate = 1)
include hs

theorem decodeDsp_tx_timeout (late : x.tmo = true) : decodeDsp x = .ok (.dspWallTimeout 1) := by
  simp [decodeDsp, hs, late]

variable (inTime : x.tmo = false)
include inTime

theorem decodeDsp_txEnd (ready : x.ready = true) (last : x.last = true) : decodeDsp x = .ok .dspTxEnd := by
  simp [decodeDsp, hs, inTime, ready, last]

theorem decodeDsp_tx (notEnd : (x.ready && x.last) = false) : decodeDsp x = .ok (.dspTx x.ready) := by
  simp [decodeDsp, hs, inTime, notEnd]

end

section
variable (hs : x.dstate = 2)
include hs

theorem decodeDsp_success (sees : x.fresh = true) (agrees : x.matched = true) : decodeDsp x = .ok .dspSuccess := by
  simp [decodeDsp, hs, sees, agrees]

theorem decodeDsp_wait_timeout (unconfirmed : (x.fresh && x.matched) = false) (late : x.tmo = true) :
    decodeDsp x = .ok (.dspWallTimeout 2) := by
  simp [decodeDsp, hs, unconfirmed, late]

variable (inTime : x.tmo = false)
include inTime

theorem decodeDsp_wait (unseen : x.fresh = false) : decodeDsp x = .ok .dspWait := by
  simp [decodeDsp, hs, inTime, unseen]

variable (sees : x.fresh = true) (differs : x.matched = false)
include sees differs

theorem decodeDsp_retry (left : x.attLeft = true) : decodeDsp x = .ok .dspRetry := by
  simp [decodeDsp, hs, inTime, sees, differs, left]

theorem decodeDsp_exhaust (spent : x.attLeft = false) : decodeDsp x = .ok .dspExhaust := by
  simp [decodeDsp, hs, inTime, sees, differs, spent]

end

end

/-! ### The statement -/

theorem matched_iff (s : State) : s.matched = true ↔
    s.store.snap.vEquip = true ∧ s.store.snap.equip.getLsbD s.dsp.cFeat.toNat = s.dsp.cSt := by
  rw [State.matched, Bool.and_eq_true, beq_iff_eq]

/-- Settles O7, row by row: the signals of a cycle are the conditions of the rules. -/
theorem dispatcherSelectionFollowsItsOrder : Obligations.DispatcherSelectionFollowsItsOrder := by
  unfold Obligations.DispatcherSelectionFollowsItsOrder
  intro s i pick tmo sees agrees
  have late : tmo → s.tmo = true := (tmo_eq_true_iff s).mpr
  have inTime (h : ¬ tmo) : s.tmo = false := (tmo_eq_false_iff s).mpr (Nat.le_of_not_lt h)
  have unseen (h : ¬ sees) : s.store.fresh = false := Bool.eq_false_iff.mpr h
  have matched : agrees → s.matched = true := (matched_iff s).mpr
  have differs (h : ¬ agrees) : s.matched = false := Bool.eq_false_iff.mpr (h ∘ (matched_iff s).mp)
  refine ⟨?idle, ?start, fun hs h => decodeDsp_tx_timeout hs (late h), ?txEnd, ?tx,
    fun hs h h' => decodeDsp_success hs h (matched h'), ?waitTimeout, ?retry, ?exhaust,
    fun hs h h' => decodeDsp_wait hs (inTime h') (unseen h)⟩
  case idle =>
    intro hs noSetf
    refine decodeDsp_idle hs (Option.eq_none_iff_forall_ne_some.mpr fun ⟨st, feat⟩ starts => ?_)
    obtain ⟨we, addr, setf⟩ := (startOf_eq_some_iff i st feat).mp starts
    exact noSetf st feat we addr setf
  case start =>
    exact fun hs we addr st feat setf => decodeDsp_start hs ((startOf_eq_some_iff i st feat).mpr ⟨we, addr, setf⟩)
  case txEnd =>
    exact fun hs h ready last => decodeDsp_txEnd hs (inTime h) ready ((lastByte_iff s).mpr last)
  case tx =>
    intro hs h notEnd
    refine decodeDsp_tx hs (inTime h) (Bool.eq_false_iff.mpr fun ends => ?_)
    obtain ⟨ready, last⟩ := Bool.and_eq_true_iff.mp ends
    exact notEnd.elim (fun unready => absurd (ready.symm.trans unready) (by decide))
      (fun more => more ((lastByte_iff s).mp last))
  case waitTimeout =>
    intro hs unconfirmed h
    refine decodeDsp_wait_timeout hs (Bool.eq_false_iff.mpr fun confirmed => unconfirmed ?_) (late h)
    obtain ⟨fresh, equal⟩ := Bool.and_eq_true_iff.mp confirmed
    exact ⟨fresh, (matched_iff s).mp equal⟩
  case retry =>
    exact fun hs h h' h'' left => decodeDsp_retry hs (inTime h'') h (differs h') ((attLeft_iff s).mpr left)
  case exhaust =>
    exact fun hs h h' h'' spent => decodeDsp_exhaust hs (inTime h'') h (differs h')
      (Bool.eq_false_iff.mpr fun left => absurd ((attLeft_iff s).mp left) (Nat.not_lt_of_le spent))

end Sys2Proof.Machine
end

section
/-! PROOFS. The dispatcher in a step: what arrives in the cycle does not reach it (43_command_dispatcher.md R245), a
step from the invariant always has a next state (45_cycle_step.md R308), and what such a step does to a command in
progress. -/
namespace Sys2Proof.Machine

/-! ### The inputs that the dispatcher does not see -/

/-- The read port, the host's unit and the dispatcher's unit of two cycles that differ in the receive port alone are the
same. -/
theorem frontUnits_of_receive_inputs {i j : CycleIn} (ready : i.txReady = j.txReady) (we : i.hWe = j.hWe)
    (addr : i.hAddr = j.hAddr) (wdata : i.hWdata = j.hWdata) (s : State) :
    State.readCode i = State.readCode j ∧ State.hostCode i = State.hostCode j ∧ s.dspSel i = s.dspSel j := by
  simp only [State.readCode, State.hostCode, State.dspSel, State.startOf, ready, we, addr, wdata, and_self]

theorem runUnit_unique {c c' : Code} {s t t' : State} (same : c = c') (h : runUnit c s = .next t)
    (h' : runUnit c' s = .next t') : t = t' :=
  Host.Outcome.next.inj (h.symm.trans (same ▸ h'))

/-- Settles O51: the two cycles begin in one state, and their units up to the dispatcher's are the same. -/
theorem dispatcherIgnoresTheReceiverInACycle : Obligations.DispatcherIgnoresTheReceiverInACycle := by
  unfold Obligations.DispatcherIgnoresTheReceiverInACycle
  intro s t u i j ts rst ready we addr wdata ht hu
  obtain ⟨-, ⟨resetI, rfl⟩ | ⟨runI, -, q, h, d, r, readI, hostI, dispatcherI, -, rfl⟩⟩ := runCycle_eq_next ht <;>
    obtain ⟨-, ⟨resetJ, rfl⟩ | ⟨runJ, -, q', h', d', r', readJ, hostJ, dispatcherJ, -, rfl⟩⟩ := runCycle_eq_next hu
  case inl.inl =>
    have same : s.resetCycle i = s.resetCycle j := by rw [State.resetCycle, State.resetCycle, addr]
    exact ⟨rfl, rfl, rfl, rfl, congrArg (·.out) same, rfl, rfl⟩
  case inl.inr => exact absurd (resetI.symm.trans (rst.trans runJ)) (by decide)
  case inr.inl => exact absurd (resetJ.symm.trans (rst.symm.trans runI)) (by decide)
  case inr.inr =>
    let b : State := { s with tape := ts, cycle := s.cycle + 1, events := [] }
    obtain ⟨sameRead, sameHost, sameSel⟩ := frontUnits_of_receive_inputs ready we addr wdata b
    obtain rfl : q = q' := runUnit_unique sameRead readI readJ
    obtain rfl : h = h' := runUnit_unique sameHost hostI hostJ
    obtain rfl : d = d' := runUnit_unique (congrArg Code.dsp sameSel) dispatcherI dispatcherJ
    exact ⟨rfl, rfl, rfl, rfl, rfl, rfl, rfl⟩

/-! ### A step from the invariant -/

/-- RSTATE 0 to 4 all have a row. -/
theorem decodeRx_isOk {x : RxSel} (h : x.rstate.toNat ≤ 4) : ∃ op, decodeRx x = .ok op := by
  have known : x.rstate = 4 ∨ x.rstate = 0 ∨ x.rstate = 1 ∨ x.rstate = 2 ∨ x.rstate = 3 := by
    generalize x.rstate = r at h
    revert h r
    decide
  cases intact : x.chanFail with
  | true => exact ⟨_, decodeRx_fail intact⟩
  | false =>
    rcases known with dead | alive
    · exact ⟨_, decodeRx_dead intact dead⟩
    have alive' : x.rstate ≠ 4 := by
      rintro dead
      simp [dead] at alive
    cases on : x.rxEn with
    | false => exact ⟨_, decodeRx_off intact alive' on⟩
    | true =>
      cases taking : x.rxValid with
      | false => exact ⟨_, decodeRx_none intact on alive' taking⟩
      | true =>
        rcases alive with hs | hs | hs | hs
        · exact ⟨_, decodeRx_hunt intact on taking hs⟩
        · exact ⟨_, decodeRx_hdr intact on taking hs⟩
        · exact ⟨_, decodeRx_pay intact on taking hs⟩
        · rcases BitVec.eq_zero_or_eq_one x.kcnt with hk | hk
          · exact ⟨_, decodeRx_ck0 intact on taking hs hk⟩
          · exact ⟨_, decodeRx_ck1 intact on taking hs hk⟩

/-- In PAY there is a slot for the byte, and a completed frame has the bytes that its decode reads. -/
theorem rxUnit_next {s : State} (wf : s.cfg.wf = true) (hs : s.rx.Legal) (right : s.ReaderRight) (i : CycleIn) :
    ∃ t, runUnit (.rx (s.rxSel i)) s = .next t := by
  obtain ⟨rstate, -⟩ := hs
  obtain ⟨more, -⟩ := right
  obtain ⟨op, hop⟩ := decodeRx_isOk (x := s.rxSel i) rstate
  rw [rxUnit_of_decodeRx hop]
  rcases decodeRx_cases hop with ⟨-, rfl⟩ | ⟨-, -, rfl⟩ | ⟨-, -, -, rfl⟩ | ⟨-, -, -, -, rfl⟩ |
    ⟨-, -, -, ⟨-, rfl⟩ | ⟨-, rfl⟩ | ⟨pay, rfl⟩ | ⟨-, -, rfl⟩ | ⟨-, -, rfl⟩⟩
  · exact ⟨_, rfl⟩
  · exact ⟨_, rfl⟩
  · exact ⟨_, rfl⟩
  · exact ⟨_, rfl⟩
  · show ∃ t, execRxHunt i.rxData s = .next t
    dsimp only [execRxHunt]
    split <;> exact ⟨_, rfl⟩
  · show ∃ t, execRxHdr i.rxData s = .next t
    dsimp only [execRxHdr]
    split <;> exact ⟨_, rfl⟩
  · have := more pay
    have := s.rx.fLen.isLt
    exact ⟨_, execRxPay_of_lt (by omega)⟩
  · exact ⟨_, rfl⟩
  · exact ⟨_, execRxCk1_eq_completed wf (s.rx.frame_lenOk i.rxData)⟩

/-- A cycle without reset in which every unit has a next state ends in the merge. -/
theorem step_eq_merge {s q h d r : State} (wf : s.cfg.wf = true) (hrst : s.input.rst = false) (legal : s.legal = true)
    (read : runUnit (State.readCode s.input) s.beginCycle = .next q)
    (host : runUnit (State.hostCode s.input) s.beginCycle = .next h)
    (dispatcher : runUnit (.dsp (s.beginCycle.dspSel s.input)) (s.beginCycle.forDispatcher h) = .next d)
    (reader : runUnit (.rx (s.beginCycle.rxSel s.input)) (s.beginCycle.forReader h d) = .next r) :
    step s = .next (s.beginCycle.merge q h d r) := by
  rw [step, runCycle, if_neg (by simp [wf]), if_neg (by simp [hrst]), if_neg (by simp [legal]), runUnits, read,
    andThen, host, andThen, dispatcher, andThen, reader, andThen]

/-- From the invariant every unit of a cycle has a next state. -/
theorem step_next_of_inv {s : State} (wf : s.cfg.wf = true) (inv : s.Inv) : ∃ t, step s = .next t := by
  obtain ⟨legal, readerRight, -⟩ := inv
  obtain ⟨rx, dsp⟩ := (legal_iff_units s).mp legal
  cases hrst : s.input.rst with
  | true => exact ⟨s.resetCycle s.input, by rw [step, runCycle, if_neg (by simp [wf]), if_pos hrst]⟩
  | false =>
    obtain ⟨h, host, -⟩ := hostUnit_next s.input s.beginCycle
    obtain ⟨d, dispatcher⟩ := dspUnit_next (s := s.beginCycle.forDispatcher h) dsp s.input
    obtain ⟨r, reader⟩ := rxUnit_next (s := s.beginCycle.forReader h d) wf rx readerRight s.input
    exact ⟨_, step_eq_merge wf hrst legal (readUnit_eq _ _) host dispatcher reader⟩

/-! ### A command in progress -/

/-- A cycle of a command in progress ends it with DONE, or it has not timed out and one more tick has elapsed. -/
theorem dspUnit_busy {i : CycleIn} {s t : State} (busy : s.dsp.dstate ≠ 0)
    (h : runUnit (.dsp (s.dspSel i)) s = .next t) :
    (t.dsp.dstate = 0 ∧ t.res.done = true) ∨ (t.dsp.dstate ≠ 0 ∧ t.dsp.elapsed = s.dsp.elapsed + 1) := by
  have ticks (inTime : s.tmo = false) : s.tick = s.dsp.elapsed + 1 := by
    have := (tmo_eq_false_iff s).mp inTime
    rw [tick_eq]
    omega
  rcases dspUnit_cases h with ⟨_, _, idle, -⟩ | ⟨idle, -⟩ | ⟨-, -, timeout⟩ | ⟨-, inTime, -, -, txEnd⟩ |
    ⟨hs, inTime, notEnd, tx⟩ | ⟨-, -, -, success⟩ | ⟨-, -, -, timeout⟩ | ⟨-, inTime, -, -, -, retry⟩ |
    ⟨-, -, -, -, -, exhaust⟩ | ⟨hs, inTime, -, wait⟩
  · exact absurd idle busy
  · exact absurd idle busy
  · cases timeout
    exact .inl ⟨rfl, rfl⟩
  · obtain ⟨b, -, rfl⟩ := execDspTxEnd_eq_next txEnd
    exact .inr ⟨by simp, ticks inTime⟩
  · obtain ⟨b, -, rfl⟩ := execDspTx_eq_next notEnd tx
    exact .inr ⟨busy, ticks inTime⟩
  · cases success
    exact .inl ⟨rfl, rfl⟩
  · cases timeout
    exact .inl ⟨rfl, rfl⟩
  · cases retry
    exact .inr ⟨by simp, ticks inTime⟩
  · cases exhaust
    exact .inl ⟨rfl, rfl⟩
  · cases wait
    exact .inr ⟨busy, ticks inTime⟩

/-- The dispatcher's registers after a byte of the command frame is taken (43_command_dispatcher.md R233, R234). -/
def State.afterByte (s : State) : Dispatcher :=
  if s.dsp.txidx = 11 then { s.dsp with txidx := 0, dstate := dWait, elapsed := s.tick }
  else { s.dsp with txidx := s.dsp.txidx + 1, elapsed := s.tick }

theorem dspUnit_of_decodeDsp {x : DspSel} {op : Instr} (h : decodeDsp x = .ok op) (s : State) :
    runUnit (.dsp x) s = exec op s :=
  runUnit_of_decode (code := .dsp x) h

/-- A cycle of TX in time, with `tx_ready` 1, offers byte TXIDX and takes it. -/
theorem dspUnit_sends {i : CycleIn} {s t : State} (hs : s.dsp.dstate = 1) (inTime : s.tmo = false)
    (ready : i.txReady = true) (h : runUnit (.dsp (s.dspSel i)) s = .next t) :
    t.out.txValid = true ∧ s.txByte s.dsp.cFeat s.dsp.cSt = some t.out.txData ∧ t.dsp = s.afterByte := by
  unfold State.afterByte
  split
  case isTrue last =>
    rw [dspUnit_of_decodeDsp (decodeDsp_txEnd (x := s.dspSel i) hs inTime ready ((lastByte_iff s).mpr last))] at h
    obtain ⟨b, byte, rfl⟩ := execDspTxEnd_eq_next h
    exact ⟨rfl, byte, rfl⟩
  case isFalse more =>
    have notEnd : (i.txReady && s.lastByte) = false :=
      Bool.eq_false_iff.mpr fun ends => more ((lastByte_iff s).mp (Bool.and_eq_true_iff.mp ends).2)
    rw [dspUnit_of_decodeDsp (decodeDsp_tx (x := s.dspSel i) hs inTime notEnd)] at h
    obtain ⟨b, byte, rfl⟩ := execDspTx_eq_next notEnd h
    exact ⟨rfl, byte, by rw [if_pos ready]⟩

end Sys2Proof.Machine
end

section
/-! PROOFS. A command over several cycles: it ends in time (43_command_dispatcher.md R246), and an attempt sends the
twelve bytes of the command frame (R231; 70_reset_and_hazards.md R364). -/
namespace Sys2Proof.Machine

theorem input_mem_tape {s : State} (listed : 0 < s.tape.length) : s.input ∈ s.tape := by
  unfold State.input
  cases tape : s.tape with
  | nil => simp [tape] at listed
  | cons i rest => exact List.mem_cons_self

/-- A step from the invariant ends in the invariant, with the configuration kept and one entry of the tape taken. -/
theorem step_inv {s : State} (wf : s.cfg.wf = true) (inv : s.Inv) :
    ∃ t, step s = .next t ∧ t.Inv ∧ t.cfg = s.cfg ∧ t.tape = s.tape.tail := by
  obtain ⟨t, hstep⟩ := step_next_of_inv wf inv
  obtain ⟨cfg, tape, -⟩ := configurationIsFixed s t hstep
  exact ⟨t, hstep, stepKeepsTheInvariant s t inv hstep, cfg, tape⟩

/-! ### The end of a command -/

theorem State.Inv.elapsed_le {s : State} (inv : s.Inv) : s.dsp.elapsed ≤ 5 * s.cfg.fClkHz + 1 := by
  obtain ⟨-, -, -, -, -, -, -, -, elapsed, -⟩ := inv
  exact elapsed

theorem step_busy {s t : State} (hstep : step s = .next t) (hrst : s.input.rst = false) (busy : s.dsp.dstate ≠ 0) :
    (t.dsp.dstate = 0 ∧ t.res.done = true) ∨ (t.dsp.dstate ≠ 0 ∧ t.dsp.elapsed = s.dsp.elapsed + 1) := by
  obtain ⟨h, d, -, dispatcher, -, dsp, res, -⟩ := step_without_reset hrst hstep
  rw [dsp, res]
  exact dspUnit_busy (i := s.input) (s := s.beginCycle.forDispatcher h) busy dispatcher

/-- With `n` ticks left the command ends within `n` cycles: ELAPSED advances in every cycle that does not end it, and in
a state of the invariant it is at most TIMEOUT_TICKS + 1. -/
theorem run_ends_command (n : Nat) {s : State} (wf : s.cfg.wf = true) (inv : s.Inv) (busy : s.dsp.dstate ≠ 0)
    (left : n + s.dsp.elapsed = 5 * s.cfg.fClkHz + 2) (listed : n ≤ s.tape.length)
    (noReset : ∀ i ∈ s.tape, i.rst = false) :
    ∃ k t, k ≤ n ∧ Host.Core.run Sys2Proof.core k s = .next t ∧ t.dsp.dstate = 0 ∧ t.res.done = true ∧ t.Inv := by
  induction n generalizing s with
  | zero =>
    have := inv.elapsed_le
    omega
  | succ n ih =>
    obtain ⟨t, hstep, invAfter, cfg, tape⟩ := step_inv wf inv
    rcases step_busy hstep (noReset _ (input_mem_tape (by omega))) busy with ⟨idle, done⟩ | ⟨busyAfter, elapsed⟩
    · exact ⟨1, t, by omega, run_succ (M := Sys2Proof.core) hstep 0, idle, done, invAfter⟩
    · have listedAfter : n ≤ t.tape.length := by
        rw [tape, List.length_tail]
        omega
      obtain ⟨k, u, soon, runs, ended⟩ := ih (cfg ▸ wf) invAfter busyAfter (by rw [elapsed, cfg]; omega) listedAfter
        fun i hi => noReset i (List.mem_of_mem_tail (tape ▸ hi))
      exact ⟨k + 1, u, by omega, (run_succ (M := Sys2Proof.core) hstep k).trans runs, ended⟩

/-- Settles O57: in a state of the invariant ELAPSED leaves at least one tick, and ATT is at most 5. -/
theorem everyCommandEndsInTime : Obligations.EveryCommandEndsInTime := by
  unfold Obligations.EveryCommandEndsInTime
  intro s wf inv busy listed noReset
  have := inv.elapsed_le
  obtain ⟨k, t, soon, runs, idle, done, legal, -⟩ :=
    run_ends_command (5 * s.cfg.fClkHz + 2 - s.dsp.elapsed) wf inv busy (by omega) (by omega) noReset
  obtain ⟨-, -, -, -, att, -⟩ := (legal_iff t).mp legal
  exact ⟨k, t, by omega, runs, idle, done, att⟩

/-! ### The bytes of an attempt -/

theorem step_sends {s t : State} (hstep : step s = .next t) (hrst : s.input.rst = false)
    (ready : s.input.txReady = true) (hs : s.dsp.dstate = 1) (inTime : s.dsp.elapsed ≤ 5 * s.cfg.fClkHz) :
    t.out.txValid = true ∧ cmdByte s.cfg s.dsp.cFeat s.dsp.cSt s.dsp.txidx.toNat = some t.out.txData ∧
      t.dsp = s.afterByte := by
  obtain ⟨h, d, -, dispatcher, out, dsp, -⟩ := step_without_reset hrst hstep
  rw [out, dsp]
  exact dspUnit_sends (i := s.input) (s := s.beginCycle.forDispatcher h) hs ((tmo_eq_false_iff s).mpr inTime) ready
    dispatcher

/-- `k` cycles lead from `s`, where an attempt begins, to `t`, where `k` bytes have been taken. -/
structure Sending (s : State) (k : Nat) (t : State) : Prop where
  runs : ∀ n, Host.Core.run Sys2Proof.core (k + n) s = Host.Core.run Sys2Proof.core n t
  inv : t.Inv
  cfg : t.cfg = s.cfg
  tape : t.tape = s.tape.drop k
  dsp : t.dsp = { s.dsp with txidx := BitVec.ofNat 4 k, elapsed := s.dsp.elapsed + k }

theorem Sending.start {s : State} (inv : s.Inv) (first : s.dsp.txidx = 0) : Sending s 0 s where
  runs n := by rw [Nat.zero_add]
  inv := inv
  cfg := rfl
  tape := rfl
  dsp := by
    rw [Nat.add_zero, show BitVec.ofNat 4 0 = s.dsp.txidx from first.symm]

theorem Sending.afterByte {s t : State} {k : Nat} (sending : Sending s k t) (more : k < 11)
    (time : s.dsp.elapsed + 11 ≤ 5 * s.cfg.fClkHz) :
    t.afterByte = { s.dsp with txidx := BitVec.ofNat 4 (k + 1), elapsed := s.dsp.elapsed + (k + 1) } := by
  have index : t.dsp.txidx = BitVec.ofNat 4 k := by rw [sending.dsp]
  have notLast : t.dsp.txidx ≠ 11 := by
    rw [index]
    bv_omega
  have tick : t.tick = s.dsp.elapsed + (k + 1) := by
    rw [tick_eq, sending.cfg, sending.dsp]
    dsimp only
    omega
  rw [State.afterByte, if_neg notLast, index, tick, sending.dsp, BitVec.ofNat_add]
  rfl

section
variable {s : State} {k : Nat} (wf : s.cfg.wf = true) (hs : s.dsp.dstate = 1)
  (time : s.dsp.elapsed + 11 ≤ 5 * s.cfg.fClkHz) (listed : 12 ≤ s.tape.length)
  (inputs : ∀ i ∈ s.tape, i.rst = false ∧ i.txReady = true)
include wf hs time listed inputs

/-- The cycle after `k` bytes offers byte `k` and takes it. -/
theorem Sending.step {t : State} (sending : Sending s k t) (inside : k ≤ 11) :
    ∃ u, Machine.step t = .next u ∧ u.Inv ∧ u.cfg = s.cfg ∧ u.tape = s.tape.drop (k + 1) ∧ u.out.txValid = true ∧
      cmdByte s.cfg s.dsp.cFeat s.dsp.cSt k = some u.out.txData ∧ u.dsp = t.afterByte := by
  obtain ⟨u, hstep, inv, cfg, tape⟩ := step_inv (sending.cfg ▸ wf) sending.inv
  have nonempty : 0 < t.tape.length := by
    rw [sending.tape, List.length_drop]
    omega
  have drawn : t.input ∈ s.tape := List.mem_of_mem_drop (sending.tape ▸ input_mem_tape nonempty)
  obtain ⟨hrst, ready⟩ := inputs _ drawn
  have index : t.dsp.txidx.toNat = k := by
    rw [sending.dsp, BitVec.toNat_ofNat]
    omega
  have inTime : t.dsp.elapsed ≤ 5 * t.cfg.fClkHz := by
    rw [sending.dsp, sending.cfg]
    dsimp only
    omega
  obtain ⟨valid, byte, dsp⟩ := step_sends hstep hrst ready (sending.dsp ▸ hs) inTime
  rw [index, sending.cfg, sending.dsp] at byte
  exact ⟨u, hstep, inv, cfg.trans sending.cfg, by rw [tape, sending.tape, List.tail_drop], valid, byte, dsp⟩

/-- After every number of bytes short of the whole frame the attempt goes on. -/
theorem sending_of_le (inv : s.Inv) (first : s.dsp.txidx = 0) (inside : k ≤ 11) : ∃ t, Sending s k t := by
  induction k with
  | zero => exact ⟨s, .start inv first⟩
  | succ k ih =>
    obtain ⟨t, sending⟩ := ih (by omega)
    obtain ⟨u, hstep, invAfter, cfg, tape, -, -, dsp⟩ := sending.step wf hs time listed inputs (by omega)
    refine ⟨u, fun n => ?_, invAfter, cfg, tape, dsp.trans (sending.afterByte inside time)⟩
    rw [Nat.add_assoc, sending.runs, Nat.add_comm, run_succ (M := Sys2Proof.core) hstep]

end

/-- Settles O59: after `k` bytes the next cycle offers byte `k`, and the one after byte 11 waits. -/
theorem anAttemptSendsTheTwelveBytes : Obligations.AnAttemptSendsTheTwelveBytes := by
  unfold Obligations.AnAttemptSendsTheTwelveBytes
  intro s k wf inv hs first time listed inputs inside
  obtain ⟨t, sending⟩ := sending_of_le (k := k) wf hs time listed inputs inv first (by omega)
  obtain ⟨u, hstep, -, -, -, valid, byte, dsp⟩ := sending.step wf hs time listed inputs (by omega)
  refine ⟨u, (sending.runs 1).trans (run_succ (M := Sys2Proof.core) hstep 0), valid, byte, fun more => ?_,
    fun last => ?_, ?_⟩
  · rw [dsp, sending.afterByte more time]
    refine ⟨hs, ?_⟩
    rw [BitVec.toNat_ofNat]
    omega
  · have lastIndex : t.dsp.txidx = 11 := by rw [sending.dsp, last]; rfl
    rw [dsp, State.afterByte, if_pos lastIndex]
  · rw [dsp, State.afterByte]
    split <;> rw [sending.dsp]

end Sys2Proof.Machine
end

section
/-! PROOFS. The host interface (44_host_interface.md R273 to R278): what SETF, CLR and the illegal words do, that a write
to CMD is the row its word decodes to, and that a write to any other read-only or reserved address does nothing. -/
namespace Sys2Proof.Machine

/-! ### The fields of a word as numbers -/

theorem flag_toNat {m : Nat} (w : BitVec m) (i : Nat) : (w.getLsbD i).toNat = w.toNat / 2 ^ i % 2 :=
  Nat.toNat_testBit w.toNat i

theorem field_eq_ofNat {m : Nat} (w : BitVec m) (i n : Nat) :
    w.extractLsb' i n = BitVec.ofNat n (w.toNat / 2 ^ i % 2 ^ n) := by
  rw [← field_toNat, BitVec.ofNat_toNat, BitVec.setWidth_eq]

theorem opcode_toNat (w : Half) : (w.extractLsb' 12 4).toNat = w.toNat / 4096 := by
  have := w.isLt
  rw [field_toNat]
  omega

/-! ### Register accesses -/

theorem decodeHost_write_other {a : BitVec 5} (notCtrl : a ≠ 0) (notCmd : a ≠ 1) (v : Half) :
    decodeHost true a v = .regWriteOther a v := by
  rw [decodeHost, if_pos rfl, if_neg notCtrl, if_neg notCmd]

/-- CMD has no stored value, and no register stands above 0x16 (10_state.md R49, R65). -/
theorem regRead_cmd_or_reserved (s : State) {a : BitVec 5} (ha : a.toNat = 1 ∨ 0x17 ≤ a.toNat) : s.regRead a = 0 := by
  rcases ha with cmd | reserved
  · rw [State.regRead, cmd]
    rfl
  · have := a.isLt
    unfold State.regRead
    interval_cases a.toNat <;> rfl

/-- Settles O16: neither CTRL nor CMD is addressed, and REG_WRITE.OTHER gives the state back. -/
theorem otherWritesChangeNothing : Obligations.OtherWritesChangeNothing := by
  unfold Obligations.OtherWritesChangeNothing
  intro s a v
  refine ⟨fun notCtrl notCmd => ⟨decodeHost_write_other notCtrl notCmd v, rfl⟩, fun ha => ?reads⟩
  case reads =>
    have zero := regRead_cmd_or_reserved s ha
    show Host.Outcome.next { s with out := { s.out with hRdata := s.regRead a } } = _
    rw [zero]

/-! ### NOP, SETF and CLR -/

/-- Settles O17. -/
theorem nopChangesNothing : Obligations.NopChangesNothing := by
  unfold Obligations.NopChangesNothing
  intro s
  rfl

theorem execSetf_idle {s : State} (idle : s.dsp.dstate = 0) (st : Bool) (feat : BitVec 4) :
    execSetf st feat s = .next (s.start st feat) :=
  if_pos idle

theorem execSetf_busy {s : State} (busy : s.dsp.dstate ≠ 0) (st : Bool) (feat : BitVec 4) :
    execSetf st feat s =
      .next { s with err := { s.err with cmdOverrun := true }, events := s.events ++ [.cmdOverrun] } :=
  if_neg busy

/-- Settles O18: what SETF starts in IDLE is `State.start`, and DSP.START is that with no byte offered. -/
theorem setfStartsACommandOrOverruns : Obligations.SetfStartsACommandOrOverruns := by
  unfold Obligations.SetfStartsACommandOrOverruns
  intro s st feat
  exact ⟨fun idle => execSetf_idle idle st feat, fun busy => execSetf_busy busy st feat, rfl⟩

/-- Settles O19: the completion flags are as CLR writes them; the errors by CLR_ERR, the counts by CLR_CNT. -/
theorem clrClearsWhatItsBitsName : Obligations.ClrClearsWhatItsBitsName := by
  unfold Obligations.ClrClearsWhatItsBitsName
  intro s cnt err done
  refine ⟨_, rfl, rfl, rfl, ?errors, ?counts⟩
  case errors => cases err <;> rfl
  case counts => cases cnt <;> rfl

/-! ### The illegal rows -/

/-- Settles O20: each row is `State.illegalCmd`, whatever its operands are. -/
theorem illegalRowsOnlySetIllegalOp : Obligations.IllegalRowsOnlySetIllegalOp := by
  unfold Obligations.IllegalRowsOnlySetIllegalOp
  intro s r12 r7 st feat r9 low r14 r15 t
  exact ⟨rfl, rfl, rfl, rfl, rfl, rfl⟩

/-- An illegal word decodes to one of the six illegal rows: (a) of 30_encoding.md R116 to the three by OP, each of (b) to
(d) to its own. -/
theorem exec_decodeCmd_of_illegal {w : Half} (illegal : illegalWord w = true) (s : State) :
    exec (decodeCmd w) s = .next s.illegalCmd := by
  have := w.isLt
  rcases (illegalWord_iff w).mp illegal with op3toF | ⟨op, bad⟩ | ⟨op, bad⟩ | ⟨op, bad⟩
  · have ops : w.toNat / 4096 = 3 ∨ w.toNat / 16384 = 1 ∨ w.toNat / 32768 = 1 := by omega
    rcases ops with op | op | op
    · rw [decodeCmd_illegalOp3 (rest := w.extractLsb' 0 12) (by rw [field_toNat]; omega)]
      rfl
    · rw [decodeCmd_illegalOp4to7 (rest := w.extractLsb' 0 14) (by rw [field_toNat]; omega)]
      rfl
    · rw [decodeCmd_illegalOp8toF (rest := w.extractLsb' 0 15) (by rw [field_toNat]; omega)]
      rfl
  · have rsv : w.extractLsb' 0 12 ≠ 0 := (field_eq_zero_iff w 0 12).not.mpr (by omega)
    rw [decodeCmd_illegalNop (by rw [field_toNat]; omega) rsv]
    rfl
  · have reserved := field_toNat w 5 7
    have on := flag_toNat w 4
    have index := field_toNat w 0 4
    have rsv_or_index : w.extractLsb' 5 7 ≠ 0 ∨ 9 ≤ (w.extractLsb' 0 4).toNat :=
      bad.imp (field_eq_zero_iff w 5 7).not.mpr (by omega)
    rw [decodeCmd_illegalSetf (st := w.getLsbD 4) (by omega) rsv_or_index]
    rfl
  · have rsv : w.extractLsb' 3 9 ≠ 0 := (field_eq_zero_iff w 3 9).not.mpr (by omega)
    rw [decodeCmd_illegalClr (low := w.extractLsb' 0 3) (by rw [field_toNat, field_toNat]; omega) rsv]
    rfl

/-! ### A write to CMD -/

section
variable {w : Half} (legal : ¬ illegalWord w = true)
include legal

/-- A legal word of OP 0 is the word 0. -/
theorem decodeCmd_nop_of_legal (op : w.toNat / 4096 = 0) : decodeCmd w = .nop := by
  rw [illegalWord_iff] at legal
  exact decodeCmd_nop (by omega)

theorem decodeCmd_setf_of_legal (op : w.toNat / 4096 = 1) :
    decodeCmd w = .setf (w.getLsbD 4) (w.extractLsb' 0 4) :=
  have isSetf : w.extractLsb' 12 4 = 1 := BitVec.eq_of_toNat_eq ((opcode_toNat w).trans op)
  (decodeCmd_eq_setf_iff w _ _).mpr ⟨Bool.eq_false_iff.mpr legal, isSetf, rfl, rfl⟩

theorem decodeCmd_clr_of_legal (op : w.toNat / 4096 = 2) :
    decodeCmd w = .clr (w.getLsbD 2) (w.getLsbD 1) (w.getLsbD 0) := by
  rw [illegalWord_iff] at legal
  have bits := flag_toNat w
  exact decodeCmd_clr (by rw [bits, bits, bits]; omega)

/-- A legal word is a NOP, a SETF or a CLR, and the write does what that operation does. -/
theorem execRegWriteCmd_eq_exec_decodeCmd_of_legal (s : State) : execRegWriteCmd w s = exec (decodeCmd w) s := by
  have opcode := opcode_toNat w
  have below : w.toNat / 4096 < 3 := by
    rw [illegalWord_iff] at legal
    omega
  unfold execRegWriteCmd
  rw [if_neg legal]
  interval_cases op : w.toNat / 4096
  · rw [if_pos (BitVec.eq_of_toNat_eq opcode), decodeCmd_nop_of_legal legal op]
    rfl
  · have is1 : w.extractLsb' 12 4 = 1 := BitVec.eq_of_toNat_eq opcode
    rw [is1, if_neg (by decide), if_pos rfl, decodeCmd_setf_of_legal legal op]
    rfl
  · have is2 : w.extractLsb' 12 4 = 2 := BitVec.eq_of_toNat_eq opcode
    rw [is2, if_neg (by decide), if_neg (by decide), decodeCmd_clr_of_legal legal op]
    rfl

end

/-- A write to CMD does what the row that the word decodes to does. -/
theorem exec_regWriteCmd_eq_exec_decodeCmd (w : Half) (s : State) :
    exec (.regWriteCmd w) s = exec (decodeCmd w) s := by
  by_cases illegal : illegalWord w = true
  · rw [exec_decodeCmd_of_illegal illegal]
    exact if_pos illegal
  · exact execRegWriteCmd_eq_exec_decodeCmd_of_legal illegal s

/-- Settles O4: a write to CMD is the row that the word decodes to, so each branch is what the word of that OP decodes
to, with its operands as arithmetic. -/
theorem commandWriteTakesTheBranchOfItsOp : Obligations.CommandWriteTakesTheBranchOfItsOp := by
  unfold Obligations.CommandWriteTakesTheBranchOfItsOp
  intro w s op illegal
  have illegal_iff : illegalWord w = true ↔ illegal := illegalWord_iff w
  have bits := getLsbD_eq_decide w
  rw [exec_regWriteCmd_eq_exec_decodeCmd w s]
  refine ⟨fun h => ?isIllegal, fun h op0 => ?nop, fun h op1 => ?setf, fun h op2 => ?clr, rfl⟩
  case isIllegal => exact exec_decodeCmd_of_illegal (illegal_iff.mpr h) s
  case nop => rw [decodeCmd_nop_of_legal (h ∘ illegal_iff.mp) op0]
  case setf =>
    rw [decodeCmd_setf_of_legal (h ∘ illegal_iff.mp) op1, bits 4, field_eq_ofNat, pow_zero, Nat.div_one]
    rfl
  case clr =>
    rw [decodeCmd_clr_of_legal (h ∘ illegal_iff.mp) op2, bits 2, bits 1, bits 0, pow_zero, Nat.div_one]
    rfl

end Sys2Proof.Machine
end

section
/-! PROOFS. What a cycle does as a whole (45_cycle_step.md R300 to R308): the units it runs and the merge of their writes,
the range check, NOW, the outputs, and the events of a cycle whose host access is a CLR. -/
namespace Sys2Proof.Machine

/-! ### The units, the range check and NOW -/

/-- Settles O56: the invariant gives every unit of the cycle a next state (`step_next_of_inv`). -/
theorem noReachableStateStops : Obligations.NoReachableStateStops := by
  unfold Obligations.NoReachableStateStops
  exact fun _ wf inv => step_next_of_inv wf inv

/-- Settles O39: each unit runs the operation that its code decodes to, and the next state is `State.merge`. -/
theorem stepRunsTheDecodedOperations : Obligations.StepRunsTheDecodedOperations := by
  unfold Obligations.StepRunsTheDecodedOperations
  intro s ih id ir q h d r wf legal hrst i b hostOp dspOp rxOp read host dispatcher reader
  exact step_eq_merge wf hrst legal read ((runUnit_of_decode (s := b) hostOp).trans host)
    ((runUnit_of_decode (s := b.forDispatcher h) dspOp).trans dispatcher)
    ((runUnit_of_decode (s := b.forReader h d) rxOp).trans reader)

theorem step_of_not_legal {s : State} (wf : s.cfg.wf = true) (hrst : s.input.rst = false) (stray : ¬ s.legal = true) :
    step s = .fault .unreachableEncoding := by
  rw [step, runCycle, if_neg (by simp [wf]), if_neg (by simp [hrst]), if_pos (by simpa using stray)]

/-- Settles O43: a stray encoding fails the range check, which every next state meets (`step_legal`). -/
theorem unreachableEncodingsFaultAndAreNeverProduced : Obligations.UnreachableEncodingsFaultAndAreNeverProduced := by
  unfold Obligations.UnreachableEncodingsFaultAndAreNeverProduced
  intro stray
  have outside {s : State} (hs : stray s) : ¬ s.legal = true := by
    rw [legal_iff]
    unfold stray at hs
    omega
  exact ⟨fun s wf hrst hs => step_of_not_legal wf hrst (outside hs), fun s t hstep ht => outside ht (step_legal hstep)⟩

/-- Settles O44: the merge adds one in 32 bits, and a reset cycle writes 0. -/
theorem nowCountsEveryCycle : Obligations.NowCountsEveryCycle := by
  unfold Obligations.NowCountsEveryCycle
  intro s t hstep
  obtain ⟨-, ⟨reset, rfl⟩ | ⟨runs, -, q, h, d, r, -, -, -, -, rfl⟩⟩ := runCycle_eq_next hstep
  case inl => exact ⟨fun runs => absurd (reset.symm.trans runs) (by decide), fun _ => rfl⟩
  case inr =>
    refine ⟨fun _ => ?_, fun reset => absurd (reset.symm.trans runs) (by decide)⟩
    rw [State.merge_now, State.beginCycle_now, BitVec.toNat_add]
    rfl

/-! ### The outputs -/

/-- The cycle is one of TX before the timeout (43_command_dispatcher.md R233). -/
def State.Sends (s : State) : Prop := s.dsp.dstate = 1 ∧ s.dsp.elapsed ≤ 5 * s.cfg.fClkHz

theorem not_sends_of_dstate {s : State} {d : BitVec 2} (hs : s.dsp.dstate = d) (hd : d ≠ 1) : ¬ s.Sends :=
  fun ⟨transmits, _⟩ => hd (hs.symm.trans transmits)

theorem not_sends_of_tmo {s : State} (late : s.tmo = true) : ¬ s.Sends :=
  fun ⟨_, inTime⟩ => Nat.not_le_of_lt ((tmo_eq_true_iff s).mp late) inTime

/-- The dispatcher's unit offers byte TXIDX of the command frame in TX before the timeout, and else no byte. -/
theorem dspUnit_out {i : CycleIn} {s t : State} (h : runUnit (.dsp (s.dspSel i)) s = .next t) :
    (s.Sends ∧ t.out.txValid = true ∧ s.txByte s.dsp.cFeat s.dsp.cSt = some t.out.txData) ∨
    (¬ s.Sends ∧ t.out.txValid = false ∧ t.out.txData = 0) := by
  rcases dspUnit_cases h with ⟨_, _, hs, -, rfl⟩ | ⟨hs, -, rfl⟩ | ⟨-, late, timeout⟩ | ⟨hs, inTime, -, -, txEnd⟩ |
    ⟨hs, inTime, notEnd, tx⟩ | ⟨hs, -, -, success⟩ | ⟨-, -, late, timeout⟩ | ⟨hs, -, -, -, -, retry⟩ |
    ⟨hs, -, -, -, -, exhaust⟩ | ⟨hs, -, -, wait⟩
  · exact .inr ⟨not_sends_of_dstate hs (by decide), rfl, rfl⟩
  · exact .inr ⟨not_sends_of_dstate hs (by decide), rfl, rfl⟩
  · cases timeout
    exact .inr ⟨not_sends_of_tmo late, rfl, rfl⟩
  · obtain ⟨b, byte, rfl⟩ := execDspTxEnd_eq_next txEnd
    exact .inl ⟨⟨hs, (tmo_eq_false_iff s).mp inTime⟩, rfl, byte⟩
  · obtain ⟨b, byte, rfl⟩ := execDspTx_eq_next notEnd tx
    exact .inl ⟨⟨hs, (tmo_eq_false_iff s).mp inTime⟩, rfl, byte⟩
  · cases success
    exact .inr ⟨not_sends_of_dstate hs (by decide), rfl, rfl⟩
  · cases timeout
    exact .inr ⟨not_sends_of_tmo late, rfl, rfl⟩
  · cases retry
    exact .inr ⟨not_sends_of_dstate hs (by decide), rfl, rfl⟩
  · cases exhaust
    exact .inr ⟨not_sends_of_dstate hs (by decide), rfl, rfl⟩
  · cases wait
    exact .inr ⟨not_sends_of_dstate hs (by decide), rfl, rfl⟩

/-- Settles O49: a reset cycle shows the state before and offers nothing; in any other the dispatcher's unit drives the
transmit port (`dspUnit_out`). -/
theorem outputsShowTheStateOfTheCycle : Obligations.OutputsShowTheStateOfTheCycle := by
  unfold Obligations.OutputsShowTheStateOfTheCycle
  intro s t hstep sends
  cases hrst : s.input.rst with
  | true =>
    have silent : ¬ sends := fun ⟨runs, _⟩ => absurd (hrst.symm.trans runs) (by decide)
    rw [step_of_reset hrst hstep]
    exact ⟨rfl, rfl, rfl, fun offers => absurd offers silent, fun _ => ⟨rfl, rfl⟩⟩
  | false =>
    obtain ⟨h, d, -, dispatcher, out, -⟩ := step_without_reset hrst hstep
    rw [out]
    refine ⟨rfl, rfl, rfl, ?_⟩
    rcases dspUnit_out (i := s.input) (s := s.beginCycle.forDispatcher h) dispatcher with
      ⟨transmits, valid, byte⟩ | ⟨silent, port⟩
    · exact ⟨fun _ => ⟨valid, byte⟩, fun not => absurd ⟨hrst, transmits⟩ not⟩
    · exact ⟨fun ⟨_, transmits⟩ => absurd transmits silent, fun _ => port⟩

/-! ### The cycle of a CLR -/

section
variable {i : CycleIn} {cnt err done : Bool} (word : decodeCmd i.hWdata = .clr cnt err done)
include word

/-- The base values of 45_cycle_step.md R303: the completion flags and the counts as CLR leaves them. -/
theorem hostUnit_clr (we : i.hWe = true) (addr : i.hAddr = 1) {s h : State}
    (host : runUnit (State.hostCode i) s = .next h) :
    h.res = (if done then { done := false, result := false, cause := false, aborted := false } else s.res) ∧
    h.diag.cntOk.toNat = (if cnt then 0 else s.diag.cntOk.toNat) ∧
    h.diag.cntCkerr.toNat = (if cnt then 0 else s.diag.cntCkerr.toNat) := by
  have clears : runUnit (State.hostCode i) s = exec (.clr cnt err done) s := by
    rw [hostUnit_eq, if_pos we, addr, if_neg (by decide), if_pos rfl, ← word]
    exact exec_regWriteCmd_eq_exec_decodeCmd i.hWdata s
  cases clears.symm.trans host
  cases cnt <;> exact ⟨rfl, rfl, rfl⟩

theorem startOf_eq_none_of_clr : State.startOf i = none := by
  rw [Option.eq_none_iff_forall_ne_some]
  rintro ⟨st, feat⟩ start
  obtain ⟨-, -, setf⟩ := (startOf_eq_some_iff i st feat).mp start
  cases word.symm.trans setf

end

/-- The dispatcher's unit writes the completion flags only where it starts or ends a command. -/
theorem dspUnit_res_of_continues {i : CycleIn} {s t : State} (h : runUnit (.dsp (s.dspSel i)) s = .next t)
    (noStart : State.startOf i = none) (continues : ¬ (s.dsp.dstate ≠ 0 ∧ t.dsp.dstate = 0)) : t.res = s.res := by
  have notEnded {d : BitVec 2} (hs : s.dsp.dstate = d) (busy : d ≠ 0) : t.dsp.dstate ≠ 0 :=
    fun ended => continues ⟨fun idle => busy (hs.symm.trans idle), ended⟩
  rcases dspUnit_cases h with ⟨_, _, -, start, -⟩ | ⟨-, -, rfl⟩ | ⟨hs, -, timeout⟩ | ⟨-, -, -, -, txEnd⟩ |
    ⟨-, -, notEnd, tx⟩ | ⟨hs, -, -, success⟩ | ⟨hs, -, -, timeout⟩ | ⟨-, -, -, -, -, retry⟩ |
    ⟨hs, -, -, -, -, exhaust⟩ | ⟨-, -, -, wait⟩
  · cases noStart.symm.trans start
  · rfl
  · cases timeout
    exact absurd rfl (notEnded hs (by decide))
  · obtain ⟨b, -, rfl⟩ := execDspTxEnd_eq_next txEnd
    rfl
  · obtain ⟨b, -, rfl⟩ := execDspTx_eq_next notEnd tx
    rfl
  · cases success
    exact absurd rfl (notEnded hs (by decide))
  · cases timeout
    exact absurd rfl (notEnded hs (by decide))
  · cases retry
    rfl
  · cases exhaust
    exact absurd rfl (notEnded hs (by decide))
  · cases wait
    rfl

/-- The last byte of a frame arrives (40_frame_reader.md R148). -/
def State.Completes (s : State) (i : CycleIn) : Prop :=
  i.chanFail = false ∧ s.ctrl.rxEn = true ∧ i.rxValid = true ∧ s.rx.rstate = 3 ∧ s.rx.kcnt = 1

theorem not_completes_of_rstate {s : State} {i : CycleIn} {n : BitVec 3} (hs : s.rx.rstate = n) (hn : n ≠ 3) :
    ¬ s.Completes i :=
  fun ⟨_, _, _, inCk, _⟩ => hn (hs.symm.trans inCk)

/-- The counts after an accepted frame, or after a rejected one (41_frame_validator.md R173, R174). -/
theorem completeFrame_counts {f : Frame} {s t : State} (h : completeFrame f s = .next t) :
    (f.ck = s.rx.sum ∧ t.diag.cntOk = satIncr s.diag.cntOk ∧ t.diag.cntCkerr = s.diag.cntCkerr) ∨
    (f.ck ≠ s.rx.sum ∧ t.diag.cntCkerr = satIncr s.diag.cntCkerr ∧ t.diag.cntOk = s.diag.cntOk) := by
  rcases completeFrame_eq_next h with ⟨agree, ⟨-, rfl⟩ | ⟨-, rfl⟩ | ⟨-, rfl⟩⟩ | ⟨differ, rfl⟩
  case inr => exact .inr ⟨differ, rfl, rfl⟩
  all_goals exact .inl ⟨agree, rfl, rfl⟩

/-- The FrameReader's unit writes the diagnostics only with the last byte of a frame, which counts once. -/
theorem rxUnit_counts {i : CycleIn} {s t : State} (h : runUnit (.rx (s.rxSel i)) s = .next t) :
    (¬ s.Completes i ∧ t.diag = s.diag) ∨
    (s.Completes i ∧
      ((256 * s.rx.ckh.toNat + i.rxData.toNat = s.rx.sum.toNat ∧
          t.diag.cntOk = satIncr s.diag.cntOk ∧ t.diag.cntCkerr = s.diag.cntCkerr) ∨
       (256 * s.rx.ckh.toNat + i.rxData.toNat ≠ s.rx.sum.toNat ∧
          t.diag.cntCkerr = satIncr s.diag.cntCkerr ∧ t.diag.cntOk = s.diag.cntOk))) := by
  rcases rxUnit_cases h with ⟨failed, fail⟩ | ⟨-, hs, rfl⟩ | ⟨-, -, off, rfl⟩ | ⟨-, -, -, quiet, rfl⟩ |
    ⟨intact, on, valid, ⟨hs, hunt⟩ | ⟨hs, hdr⟩ | ⟨hs, pay⟩ | ⟨-, hk, ck0⟩ | ⟨hs, hk, ck1⟩⟩
  · cases fail
    exact .inl ⟨fun ⟨intact, _⟩ => absurd (failed.symm.trans intact) (by decide), rfl⟩
  · exact .inl ⟨not_completes_of_rstate hs (by decide), rfl⟩
  · exact .inl ⟨fun ⟨_, on, _⟩ => absurd (off.symm.trans on) (by decide), rfl⟩
  · exact .inl ⟨fun ⟨_, _, valid, _⟩ => absurd (quiet.symm.trans valid) (by decide), rfl⟩
  · refine .inl ⟨not_completes_of_rstate hs (by decide), ?_⟩
    rcases execRxHunt_eq_next hunt with ⟨-, rfl⟩ | ⟨-, rfl⟩ <;> rfl
  · refine .inl ⟨not_completes_of_rstate hs (by decide), ?_⟩
    rw [execRxHdr_frame hdr]
  · refine .inl ⟨not_completes_of_rstate hs (by decide), ?_⟩
    rw [(execRxPay_eq_next pay).2]
  · cases ck0
    exact .inl ⟨fun ⟨_, _, _, _, second⟩ => absurd (hk.symm.trans second) (by decide), rfl⟩
  · obtain ⟨e, completes, rfl⟩ := execRxCk1_eq_next ck1
    refine .inr ⟨⟨intact, on, valid, hs, hk⟩, ?_⟩
    have agree_iff := ck_eq_iff (s.rx.frame i.rxData) s.rx.sum
    exact (completeFrame_counts completes).imp (And.imp_left agree_iff.mp) (And.imp_left (mt agree_iff.mpr))

theorem satIncr_toNat (v : Half) : (satIncr v).toNat = min (v.toNat + 1) 65535 := by
  rw [satIncr_eq_ofNat, BitVec.toNat_ofNat]
  omega

/-- Settles O48: the host's unit clears what the bits of CLR name; the dispatcher's unit starts from the completion flags
it leaves and the FrameReader's from its counts (45_cycle_step.md R303). -/
theorem eventsOfACycleSurviveItsClear : Obligations.EventsOfACycleSurviveItsClear := by
  unfold Obligations.EventsOfACycleSurviveItsClear
  intro s t cnt err done hstep hrst we addr hWdata ends completes agrees baseOk baseErr
  have word : decodeCmd s.input.hWdata = .clr cnt err done := by
    rw [hWdata]
    exact decodeCmd_clr (clr_word_toNat done err cnt)
  obtain ⟨-, ⟨reset, -⟩ | ⟨-, -, q, h, d, r, -, host, dispatcher, reader, rfl⟩⟩ := runCycle_eq_next hstep
  case inl => exact absurd (reset.symm.trans hrst) (by decide)
  obtain ⟨res, cntOk, cntCkerr⟩ := hostUnit_clr word we addr host
  refine ⟨fun ⟨busy, ended⟩ => ?done, fun continues => ?flags, ?counts⟩
  case done =>
    rcases dspUnit_busy (i := s.input) (s := s.beginCycle.forDispatcher h) busy dispatcher with ⟨-, isDone⟩ | ⟨runs, -⟩
    · exact isDone
    · exact absurd ended runs
  case flags =>
    exact (dspUnit_res_of_continues (i := s.input) (s := s.beginCycle.forDispatcher h) dispatcher
      (startOf_eq_none_of_clr word) continues).trans res
  case counts =>
    have okBase : (s.beginCycle.forReader h d).diag.cntOk.toNat = baseOk := cntOk
    have errBase : (s.beginCycle.forReader h d).diag.cntCkerr.toNat = baseErr := cntCkerr
    rw [State.merge_diag]
    rcases rxUnit_counts (i := s.input) (s := s.beginCycle.forReader h d) reader with
      ⟨partly, diag⟩ | ⟨whole, ⟨same, ok, ckerr⟩ | ⟨differ, ckerr, ok⟩⟩
    · rw [diag]
      exact ⟨fun ⟨whole, _⟩ => absurd whole partly, fun ⟨whole, _⟩ => absurd whole partly, fun _ => ⟨okBase, errBase⟩⟩
    · rw [ok, ckerr, satIncr_toNat, okBase, errBase]
      exact ⟨fun _ => ⟨rfl, rfl⟩, fun ⟨_, differ⟩ => absurd same differ, fun partly => absurd whole partly⟩
    · rw [ok, ckerr, satIncr_toNat, okBase, errBase]
      exact ⟨fun ⟨_, same⟩ => absurd same differ, fun _ => ⟨rfl, rfl⟩, fun partly => absurd whole partly⟩

end Sys2Proof.Machine
end

section
/-! PROOFS. The reset cycle (70_reset_and_hazards.md R350, R351): it needs a well-formed configuration and `rst`, and
nothing else of the state or the inputs. -/
namespace Sys2Proof.Machine

/-- Reset is tested before the range check of 45_cycle_step.md R307, so no hypothesis on the encodings is needed
(log 8), and before any unit runs, so nothing else of the inputs matters. -/
theorem step_eq_resetCycle {s : State} (wf : s.cfg.wf = true) (hrst : s.input.rst = true) :
    step s = .next (s.resetCycle s.input) := by
  rw [step, runCycle, if_neg (by simp [wf]), if_pos hrst]

/-- Settles O40: the cycle is `State.resetCycle`, which changes only the cycle number and the outputs of
`State.powerOn`. -/
theorem resetCycleResetsEveryRegister : Obligations.ResetCycleResetsEveryRegister := by
  unfold Obligations.ResetCycleResetsEveryRegister
  intro s wf hrst
  rw [step_eq_resetCycle wf hrst, State.resetCycle]

end Sys2Proof.Machine
end
